-- ==== Sys2Proof/Word.lean ====
section
/-! DEFINITION. The word types of I2CH and the two smallest enumerations every other file uses. -/

namespace Sys2Proof

/-- A 32-bit value: the command word, `result`, `acc` and the host-visible registers (R12, R110). -/
abbrev Word := BitVec 32

/-- A byte: a peripheral register address, a data byte or a pin identifier (R9, R82, R83). -/
abbrev Byte := BitVec 8

/-- A device address on the bus, `DEVADDR_WIDTH` = 7 bits (R9, R81). -/
abbrev DevAddr := BitVec 7

/-- The digital level of a bus line (R13, `P.sample`). -/
inductive Level where
  | low
  | high
  deriving DecidableEq, Repr, Inhabited

/-- The five commands by name, as the event `Done(op, r)` carries them (R58, R113). -/
inductive Op where
  | cfg
  | wr
  | rdu
  | rds
  | clr
  deriving DecidableEq, Repr

end Sys2Proof
end

