-- ==== Sys2Proof/Syntax.lean ====
section
/-! DEFINITION. The commands of I2CH, one constructor per row of spec/opcode_table.json. The operands are
the fields of R114 at their full width; which values are legal is R115 (`Instr.wellFormed`). -/

namespace Sys2Proof

/-- One command of the command port (R113, R114). -/
inductive Instr where
  /-- CFG, `configure(deviceAddress)`: the operand `ADDR8` (R146). -/
  | cfg (addr : Byte)
  /-- WR, `writeRegister(reg, value)`: the operands `REG` and `VAL` (R147). -/
  | wr (reg val : Byte)
  /-- RDU, `readRegisterUnsigned(reg, numBytes)`: the operands `REG` and `NB` (R150). -/
  | rdu (reg : Byte) (nb : BitVec 3)
  /-- RDS, `readRegisterSigned(reg, numBytes)`: the operands `REG` and `NB` (R151). -/
  | rds (reg : Byte) (nb : BitVec 3)
  /-- CLR, `clearBus(sdaPin, sclPin)`: the operands `SDA` and `SCL` (R183). -/
  | clr (sda scl : Byte)
  deriving DecidableEq, Repr

end Sys2Proof
end

