-- ==== Sys2Proof/Decode.lean ====
section
/-! DEFINITION. The command word: its fields (R112), the decoder (R114, R116, R117) and the encoder
(R118). -/

namespace Sys2Proof

/-- `OP`, bits 3:0 (R112). -/
def opField (w : Word) : BitVec 4 := w.extractLsb' 0 4

/-- `NB`, bits 6:4 (R112). -/
def nbField (w : Word) : BitVec 3 := w.extractLsb' 4 3

/-- `RSV`, bit 7 (R112). -/
def rsvField (w : Word) : BitVec 1 := w.extractLsb' 7 1

/-- `REG`, bits 15:8 (R112). -/
def regField (w : Word) : Byte := w.extractLsb' 8 8

/-- `B2`, bits 23:16 (R112). -/
def b2Field (w : Word) : Byte := w.extractLsb' 16 8

/-- `B3`, bits 31:24 (R112). -/
def b3Field (w : Word) : Byte := w.extractLsb' 24 8

/-- Why a word is reserved (R116). -/
inductive Reserved where
  /-- `OP` is 0 or 6..15. -/
  | opcode
  /-- `OP` names a command and a fixed field of its format is not the value R114 shows. -/
  | fixedField (op : Op)
  deriving DecidableEq, Repr

/-- The opcode map (R113). -/
def Op.code : Op → BitVec 4
  | .cfg => 0x1#4
  | .wr => 0x2#4
  | .rdu => 0x3#4
  | .rds => 0x4#4
  | .clr => 0x5#4

/-- The `mask` of a command's format (R114). -/
def Op.mask : Op → Word
  | .cfg => 0xFF00FFFF#32
  | .wr => 0xFF0000FF#32
  | .rdu => 0xFFFF008F#32
  | .rds => 0xFFFF008F#32
  | .clr => 0x0000FFFF#32

/-- The `match` of a command's format (R114). -/
def Op.pattern : Op → Word
  | .cfg => 0x00000001#32
  | .wr => 0x00000002#32
  | .rdu => 0x00000003#32
  | .rds => 0x00000004#32
  | .clr => 0x00000005#32

/-- The command an `OP` field selects; none for a reserved opcode (R113). -/
def Op.ofCode (code : BitVec 4) : Option Op :=
  if code = 0x1#4 then some .cfg
  else if code = 0x2#4 then some .wr
  else if code = 0x3#4 then some .rdu
  else if code = 0x4#4 then some .rds
  else if code = 0x5#4 then some .clr
  else none

/-- The fixed fields of a command's format hold the values R114 shows. -/
def fixedFieldsHold (op : Op) (w : Word) : Bool :=
  match op with
  | .cfg => nbField w == 0 && rsvField w == 0 && regField w == 0 && b3Field w == 0
  | .wr => nbField w == 0 && rsvField w == 0 && b3Field w == 0
  | .rdu => rsvField w == 0 && b2Field w == 0 && b3Field w == 0
  | .rds => rsvField w == 0 && b2Field w == 0 && b3Field w == 0
  | .clr => nbField w == 0 && rsvField w == 0 && regField w == 0

/-- The operand fields of a command's format (R114, R115). -/
def operandsOf (op : Op) (w : Word) : Instr :=
  match op with
  | .cfg => .cfg (b2Field w)
  | .wr => .wr (regField w) (b2Field w)
  | .rdu => .rdu (regField w) (nbField w)
  | .rds => .rds (regField w) (nbField w)
  | .clr => .clr (b2Field w) (b3Field w)

/-- Decoding is total: every word has exactly one format or is reserved (R117). -/
def decode (w : Word) : Except Reserved Instr :=
  match Op.ofCode (opField w) with
  | none => .error .opcode
  | some op => if fixedFieldsHold op w then .ok (operandsOf op w) else .error (.fixedField op)

/-- The command word with the given fields (R112). -/
def packWord (op : BitVec 4) (nb : BitVec 3) (reg b2 b3 : Byte) : Word :=
  b3 ++ b2 ++ reg ++ 0#1 ++ nb ++ op

/-- The command an instruction is (R113). -/
def Instr.op : Instr → Op
  | .cfg _ => .cfg
  | .wr _ _ => .wr
  | .rdu _ _ => .rdu
  | .rds _ _ => .rds
  | .clr _ _ => .clr

/-- The word of a command (R114, R118). -/
def encode : Instr → Word
  | .cfg addr => packWord Op.cfg.code 0 0 addr 0
  | .wr reg val => packWord Op.wr.code 0 reg val 0
  | .rdu reg nb => packWord Op.rdu.code nb reg 0 0
  | .rds reg nb => packWord Op.rds.code nb reg 0 0
  | .clr sda scl => packWord Op.clr.code 0 0 sda scl

/-- The instruction the decoder reads from a table word: the command port takes the word as one 32-bit
number, so there is no byte order (R85, R110). -/
def decodeTableWord (nbits w : Nat) : Option Instr :=
  match decode (BitVec.ofNat 32 (w % 2 ^ nbits)) with
  | .ok i => some i
  | .error _ => none

end Sys2Proof
end

