-- ==== Sys2Proof/Config.lean ====
section
/-! DEFINITION. The implementation parameters of R9, and the free values the spec leaves to the
collaborators. Durations are in nanoseconds (log entry 2, DESIGN CHOICE: the spec names no unit). -/

namespace Sys2Proof

/-- The parameters R9 marks OPEN. The fields hold what lies above the bound R9 gives, so that a value
outside the bounds cannot be written down (log entry 1). -/
structure OpenParams where
  /-- `PIN_COUNT` - 1, the largest pin identifier (`PIN_COUNT` is 1..256). -/
  maxPin : Byte
  /-- `HAS_BUS_CONTROLLER`. -/
  hasBusController : Bool
  /-- `T_SETTLE`, a fixed duration. -/
  tSettle : Nat
  /-- How far `T_PULSE_LOW` lies above its least value. -/
  tPulseLowBeyond : Nat
  /-- How far `T_PULSE_HIGH` lies above its least value. -/
  tPulseHighBeyond : Nat
  /-- How far `T_SDA_HOLD` lies above its least value. -/
  tSdaHoldBeyond : Nat
  deriving DecidableEq, Repr, Inhabited

/-- The value R9 gives `N_CLOCK_PULSES`. -/
def Config.nClockPulses : BitVec 5 := 20#5

/-- The value R9 gives `N_STRETCH_POLLS`. -/
def Config.nStretchPolls : BitVec 5 := 20#5

/-- The value R9 gives `T_POLL`, 100 ms (R201). -/
def Config.tPoll : Nat := 100000000

/-- All the parameters of R9 that are no widths: those marked OPEN, and three configuration fields whose
defaults are the values R9 gives (log entry 18). They are a field of the state, so that every statement
holds for every value of them (log entry 1). -/
structure Params extends OpenParams where
  /-- `N_CLOCK_PULSES`; it is loaded into `retries`, so it has 5 bits (R46, R191). -/
  nClockPulses : BitVec 5 := Config.nClockPulses
  /-- `N_STRETCH_POLLS`; it is loaded into `polls`, so it has 5 bits (R46, R199). -/
  nStretchPolls : BitVec 5 := Config.nStretchPolls
  /-- `T_POLL`. -/
  tPoll : Nat := Config.tPoll
  deriving DecidableEq, Repr, Inhabited

/-- The least whole number of nanoseconds above 5 µs (R9, `> 5 µs`). -/
def Config.overFiveMicroseconds : Nat := 5001

/-- `PIN_COUNT`, 1..256 (R9). -/
def Params.pinCount (p : Params) : Nat := p.maxPin.toNat + 1

/-- `T_PULSE_LOW`, more than 5 µs (R9, R196). -/
def Params.tPulseLow (p : Params) : Nat := Config.overFiveMicroseconds + p.tPulseLowBeyond

/-- `T_PULSE_HIGH`, more than 5 µs (R9, R198). -/
def Params.tPulseHigh (p : Params) : Nat := Config.overFiveMicroseconds + p.tPulseHighBeyond

/-- `T_SDA_HOLD`, more than 5 µs (R9, R205). -/
def Params.tSdaHold (p : Params) : Nat := Config.overFiveMicroseconds + p.tSdaHoldBeyond

/-- The three parameters to which R9 gives a value have it: 20, 20 and 100 ms. -/
def Params.HasStatedValues (p : Params) : Prop :=
  p.nClockPulses.toNat = 20 ∧ p.nStretchPolls.toNat = 20 ∧ p.tPoll = 100 * 1000000

/-- The largest count of steps of a CLR after accept (R217): SDA comes HIGH at the last pulse, and every
pulse takes all its polls. -/
def Params.maxClrSteps (p : Params) : Nat :=
  13 + p.nClockPulses.toNat * (8 + 3 * p.nStretchPolls.toNat)

/-- The OPEN parameters of the machine that `State.reset` describes: no value is chosen (log entry 1). -/
opaque Config.openParams : OpenParams

/-- The parameters of the machine that `State.reset` describes: the OPEN ones unknown, the others at the
values R9 gives. -/
def Config.params : Params := { Config.openParams with }

/-- The count `T.available()` answers at the `k`-th free draw: any value (R37, log entry 5). -/
opaque Config.freeCount : Nat → Nat

/-- The byte `T.read()` answers at the `k`-th free draw: any value (R37, log entry 5). -/
opaque Config.freeByte : Nat → Byte

/-- The Environment's level at the `k`-th free draw: any value (R42, log entry 5). -/
opaque Config.freeLevel : Nat → Level

end Sys2Proof
end

