-- ==== Sys2Proof/Machine/State.lean ====
section
/-! DEFINITION. The state of I2CH (10_state.md R31) and the reasons a step of the model stops. -/

namespace Sys2Proof.Machine

/-- The sequencer's states (R32). -/
inductive Fsm where
  | idle
  | fault
  | wBegin
  | wReg
  | wVal
  | wEnd
  | rBegin
  | rReg
  | rEnd
  | rReq
  | rPoll
  | rRead
  | rDone
  | cbInit
  | cbRelSda
  | cbRelScl
  | cbSettle
  | cbChkScl
  | cbChkSda
  | cbLoop
  | cbPulseLow
  | cbHoldLow
  | cbPulseRel
  | cbHoldHigh
  | cbStrChk
  | cbStrTest
  | cbStrWait
  | cbStrSample
  | cbRecheckSda
  | cbStart
  | cbStartHold
  | cbStop
  | cbStopHold
  | cbFinSda
  | cbFinScl
  deriving DecidableEq, Repr

/-- The drive mode of a pin (R40). `output` always drives LOW. -/
inductive PinMode where
  | input
  | inputPullup
  | output
  deriving DecidableEq, Repr

/-- The fault causes (R240). Codes 9..15 are never produced and have no name. -/
inductive FaultCause where
  | noFault
  | illegalCommand
  | numBytesRange
  | addrRange
  | pinRange
  | pinConflict
  | notConfigured
  | transportDisabled
  | concurrentUse
  deriving DecidableEq, Repr

/-- The events of the history (R58). -/
inductive Event where
  /-- `Begin(a)`. -/
  | tBegin (a : DevAddr)
  /-- `Write(b)`. -/
  | tWrite (b : Byte)
  /-- `End`. -/
  | tEnd
  /-- `Request(a, n)`. -/
  | tRequest (a : DevAddr) (n : BitVec 3)
  /-- `Avail(k)`. -/
  | tAvail (k : Nat)
  /-- `Read(b)`. -/
  | tRead (b : Byte)
  /-- `Mode(p, m)`. -/
  | mode (p : Byte) (m : PinMode)
  /-- `Sample(p, lv)`. -/
  | sample (p : Byte) (lv : Level)
  /-- `Wait(t)`, `t` in nanoseconds. -/
  | wait (t : Nat)
  /-- `CtrlOff`. -/
  | ctrlOff
  /-- `Done(op, r)`. -/
  | done (op : Op) (r : Option Word)
  /-- `Fault(c)`. -/
  | fault (c : FaultCause)
  deriving DecidableEq, Repr

/-- The Host's interactions (R57). -/
inductive HostAction where
  /-- `Issue(w)`: present the command word `w`. -/
  | issue (w : Word)
  /-- `Read(n)`: read the host-visible register number `n`. -/
  | read (n : Nat)
  /-- `InitTransport`. -/
  | initTransport
  /-- `Reset`. -/
  | reset
  deriving DecidableEq, Repr

/-- Which agent moves next (R30; log entry 4, DESIGN CHOICE). -/
inductive Turn where
  /-- The Host acts at once. -/
  | host (a : HostAction)
  /-- The Host waits for `BUSY = 0` and then acts (R57, R286). -/
  | hostWhenReady (a : HostAction)
  /-- The sequencer takes one step. -/
  | sequencer
  deriving DecidableEq, Repr

/-- The state of the block (R31), its parameters (R9), and the model's own record of the agents outside
it: the schedule of turns, the answers the collaborators will give, and what the Host has read. -/
structure State where
  /-- The parameters of R9; no step changes them. -/
  params : Params
  /-- The sequencer's state register (R32). -/
  fsm : Fsm
  /-- The latched command word (R34). -/
  cmd : Word
  /-- The device address (R35). -/
  devaddr : DevAddr
  /-- `cfg_valid` (R35). -/
  cfgValid : Bool
  /-- `xport_ready` (R44). -/
  xportReady : Bool
  /-- The value of the last result-producing command (R50). -/
  result : Word
  /-- `result_valid` (R50). -/
  resultValid : Bool
  /-- `fault_cause` (R51). -/
  faultCause : FaultCause
  /-- The assembly accumulator (R45). -/
  acc : Word
  /-- The bytes of one read, in arrival order (R45). -/
  buf : Vector Byte 4
  /-- The count of bytes read so far (R45). -/
  idx : BitVec 3
  /-- The clock pulses left (R46). -/
  retries : BitVec 5
  /-- The stretch polls left (R46). -/
  polls : BitVec 5
  /-- `sda_low` (R47). -/
  sdaLow : Bool
  /-- `scl_low` (R47). -/
  sclLow : Bool
  /-- The status code CLR will report (R48). -/
  st : BitVec 2
  /-- `sda_pin` (R49). -/
  sdaPin : Byte
  /-- `scl_pin` (R49). -/
  sclPin : Byte
  /-- `pin_mode[p]` (R40), one entry for each 8-bit pin identifier (log entry 8). -/
  pinMode : Vector PinMode 256
  /-- The event history, oldest first (R58). -/
  history : List Event
  /-- Which agent moves next, and what the Host does (log entry 4). -/
  schedule : List Turn
  /-- The counts `T.available()` will answer, oldest first (log entry 5). -/
  countAnswers : List Nat
  /-- The bytes `T.read()` will answer, oldest first (log entry 5). -/
  byteAnswers : List Byte
  /-- The levels the Environment will answer, oldest first (log entry 5). -/
  levelAnswers : List Level
  /-- How many free values have been drawn (log entry 5). -/
  freeDraws : Nat
  /-- What `Read(n)` has answered to the Host, oldest first (log entry 6). -/
  reads : List (Nat × Word)
  deriving DecidableEq, Repr

/-- Why the model stops although the spec's block would not be there. A fault of the block is no stop: it
is the state `FAULT` (R241). Neither of these is reached from reset (`State.coherent` is kept). -/
inductive Fault where
  /-- Raised by a meaning asked for a step of a command the sequencer is not running. Safe. -/
  | foreignState
  /-- Raised by the sequencer's turn when a command runs and `cmd` holds no command. Safe. -/
  | noCommand
  deriving DecidableEq, Repr

/-- What the model gives no meaning to. -/
inductive Refusal where
  /-- A command with no meaning yet, by its mnemonic; raised by `exec`. Safe. -/
  | notModelled (mnemonic : String)
  /-- A Host read the spec refuses (R52, R54, R55, R56); raised by the Host's turn. Safe. -/
  | registerRead (n : Nat)
  /-- `InitTransport` while a command runs or in `FAULT` (R57); raised by the Host's turn. Safe. -/
  | initTransport
  deriving DecidableEq, Repr

/-- The block after reset (R31, R280). The elements R31 calls unspecified are 0 (log entry 3, DESIGN
CHOICE); the model's own lists are empty (log entries 4, 5, 6). -/
def State.reset : State where
  params := Config.params
  fsm := .idle
  cmd := 0
  devaddr := 0
  cfgValid := false
  xportReady := false
  result := 0
  resultValid := false
  faultCause := .noFault
  acc := 0
  buf := Vector.replicate 4 0
  idx := 0
  retries := 0
  polls := 0
  sdaLow := false
  sclLow := false
  st := 0
  sdaPin := 0
  sclPin := 0
  pinMode := Vector.replicate 256 .input
  history := []
  schedule := []
  countAnswers := []
  byteAnswers := []
  levelAnswers := []
  freeDraws := 0
  reads := []

end Sys2Proof.Machine
end

