-- ==== Sys2Proof/Machine/Flags.lean ====
section
/-! DEFINITION. The flags derived from `fsm` (R33) and the STATUS word (R53). The block has no condition
flags (R145). -/

namespace Sys2Proof.Machine

/-- Which command's states a state of the sequencer belongs to (the groups of R32). -/
inductive Family where
  | quiet
  | write
  | read
  | clear
  deriving DecidableEq, Repr

/-- The group of a sequencer state (R32). -/
def Fsm.family : Fsm → Family
  | .idle | .fault => .quiet
  | .wBegin | .wReg | .wVal | .wEnd => .write
  | .rBegin | .rReg | .rEnd | .rReq | .rPoll | .rRead | .rDone => .read
  | .cbInit | .cbRelSda | .cbRelScl | .cbSettle | .cbChkScl | .cbChkSda | .cbLoop | .cbPulseLow
  | .cbHoldLow | .cbPulseRel | .cbHoldHigh | .cbStrChk | .cbStrTest | .cbStrWait | .cbStrSample
  | .cbRecheckSda | .cbStart | .cbStartHold | .cbStop | .cbStopHold | .cbFinSda | .cbFinScl => .clear

/-- `BUSY = (fsm ∉ {IDLE, FAULT})` (R33). -/
def State.busy (s : State) : Bool := s.fsm.family != .quiet

/-- `FAULT = (fsm = FAULT)` (R33). -/
def State.faulted (s : State) : Bool := s.fsm == .fault

/-- The 4-bit code of a fault cause (R240). -/
def FaultCause.code : FaultCause → BitVec 4
  | .noFault => 0
  | .illegalCommand => 1
  | .numBytesRange => 2
  | .addrRange => 3
  | .pinRange => 4
  | .pinConflict => 5
  | .notConfigured => 6
  | .transportDisabled => 7
  | .concurrentUse => 8

/-- The host-visible register `STATUS` (R53). -/
def State.statusWord (s : State) : Word :=
  0#20 ++ s.faultCause.code ++ 0#3 ++ BitVec.ofBool s.xportReady ++ BitVec.ofBool s.resultValid
    ++ BitVec.ofBool s.cfgValid ++ BitVec.ofBool s.faulted ++ BitVec.ofBool s.busy

end Sys2Proof.Machine
end

