-- ==== Sys2Proof/WellFormed.lean ====
section
/-! DEFINITION. Which operands are legal (R115), as one Bool per command. -/

namespace Sys2Proof

/-- `numBytes` is legal: 1..4 (R115). -/
def legalNumBytes (nb : BitVec 3) : Bool := 1 ≤ nb.toNat && nb.toNat ≤ 4

/-- A device address is legal: 0..127 (R115). -/
def legalAddr (addr : Byte) : Bool := addr.toNat ≤ 127

/-- A pin identifier names a pin: below `PIN_COUNT` (R83, R115). -/
def legalPin (p : Params) (pin : Byte) : Bool := pin.toNat < p.pinCount

/-- Every operand of the command has a legal value (R115). A word whose operands are not legal decodes
all the same; its accept step faults (R245 to R248). -/
def Instr.wellFormed (p : Params) : Instr → Bool
  | .cfg addr => legalAddr addr
  | .wr _ _ => true
  | .rdu _ nb => legalNumBytes nb
  | .rds _ nb => legalNumBytes nb
  | .clr sda scl => legalPin p sda && legalPin p scl && sda != scl

end Sys2Proof
end

