-- ==== Sys2Proof/Machine/Operands.lean ====
section
/-! DEFINITION. The operand checks of the accept step (R251) and the arithmetic of the decoder (R155,
R158). -/

namespace Sys2Proof.Machine

/-- The first of two checks that fails. -/
def FaultCause.orElse (first second : FaultCause) : FaultCause :=
  if first = .noFault then second else first

/-- Check 2 of R251: the operands' ranges (R245, R246, R247). -/
def rangeCheck (p : Params) : Instr → FaultCause
  | .cfg addr => if legalAddr addr then .noFault else .addrRange
  | .wr _ _ => .noFault
  | .rdu _ nb => if legalNumBytes nb then .noFault else .numBytesRange
  | .rds _ nb => if legalNumBytes nb then .noFault else .numBytesRange
  | .clr sda scl => if legalPin p sda && legalPin p scl then .noFault else .pinRange

/-- Check 3 of R251: one pin cannot be both lines (R248). -/
def pinConflictCheck : Instr → FaultCause
  | .clr sda scl => if sda = scl then .pinConflict else .noFault
  | _ => .noFault

/-- WR, RDU and RDS need a configured address and a ready transport (R142). -/
def needsTransport : Instr → Bool
  | .cfg _ => false
  | .wr _ _ => true
  | .rdu _ _ => true
  | .rds _ _ => true
  | .clr _ _ => false

/-- Check 4 of R251 (R249). -/
def configuredCheck (i : Instr) (s : State) : FaultCause :=
  if needsTransport i && !s.cfgValid then .notConfigured else .noFault

/-- Check 5 of R251 (R250). -/
def transportCheck (i : Instr) (s : State) : FaultCause :=
  if needsTransport i && !s.xportReady then .transportDisabled else .noFault

/-- `first_failing_check` of a word that has a format (R251; check 1 is the decoder's). -/
def firstFailingCheck (i : Instr) (s : State) : FaultCause :=
  (rangeCheck s.params i).orElse
    ((pinConflictCheck i).orElse ((configuredCheck i s).orElse (transportCheck i s)))

/-- One byte taken into the accumulator, most significant first: `(acc << 8) | zext_32(b)` (R155). -/
def shiftIn (acc : Word) (b : Byte) : Word := (acc <<< 8) ||| b.setWidth 32

/-- `s = 32 - 8*n`, the shift of the sign extension (R158). -/
def signShift (n : BitVec 3) : Nat := 32 - 8 * n.toNat

/-- `sx(acc, n) = (acc << s) >>a s` (R158). -/
def signExtend (acc : Word) (n : BitVec 3) : Word := (acc <<< signShift n).sshiftRight (signShift n)

end Sys2Proof.Machine
end

