-- ==== Sys2Proof/Machine/Ops.lean ====
section
/-! DEFINITION. The named operations over the state: the port primitives of R13, fault entry (R241),
the accept step (R111) and reset (R280). -/

namespace Sys2Proof.Machine

/-- What a step of the model answers. -/
abbrev Answer := Host.Outcome State Fault Refusal

/-- `fsm <- f` (R13). -/
def State.goto (s : State) (f : Fsm) : State := { s with fsm := f }

/-- The schedule with its first turn taken (log entry 4). -/
def State.withSchedule (s : State) (r : List Turn) : State := { s with schedule := r }

/-- `cmd <- w` (R34, R111). -/
def State.latch (s : State) (w : Word) : State := { s with cmd := w }

/-- `emit e` (R13, R58). -/
def State.emit (s : State) (e : Event) : State := { s with history := s.history ++ [e] }

/-- The step that returns `fsm` to `IDLE` and records the command's outcome (R58). -/
def State.finish (s : State) (op : Op) (r : Option Word) : State := (s.emit (.done op r)).goto .idle

/-- The drive mode of a pin (R40). -/
def State.modeOf (s : State) (p : Byte) : PinMode := s.pinMode[p.toNat]'p.isLt

/-- `P.mode(p, m)` (R13, R40). -/
def State.setMode (s : State) (p : Byte) (m : PinMode) : State :=
  { s with pinMode := s.pinMode.set p.toNat m p.isLt }.emit (.mode p m)

/-- `P.wait(t)` (R13; 92_eei_decisions.md D25): a delay of at least `t` nanoseconds. -/
def State.wait (s : State) (t : Nat) : State := s.emit (.wait t)

/-- The Environment's next answer: the first one listed, else a free value (R42, log entry 5). -/
def State.drawLevel (s : State) : Level × State :=
  match s.levelAnswers with
  | lv :: rest => (lv, { s with levelAnswers := rest })
  | [] => (Config.freeLevel s.freeDraws, { s with freeDraws := s.freeDraws + 1 })

/-- The Transport's next count: the first one listed, else a free value (R37, log entry 5). -/
def State.drawCount (s : State) : Nat × State :=
  match s.countAnswers with
  | k :: rest => (k, { s with countAnswers := rest })
  | [] => (Config.freeCount s.freeDraws, { s with freeDraws := s.freeDraws + 1 })

/-- The Transport's next byte: the first one listed, else a free value (R37, log entry 5). -/
def State.drawByte (s : State) : Byte × State :=
  match s.byteAnswers with
  | b :: rest => (b, { s with byteAnswers := rest })
  | [] => (Config.freeByte s.freeDraws, { s with freeDraws := s.freeDraws + 1 })

/-- The level of a line is the wired-AND of every device on it: LOW if the block drives its pin or the
Environment pulls the line low (R42). -/
def State.lineLevel (s : State) (p : Byte) (env : Level) : Level :=
  if s.modeOf p = .output then .low else env

/-- `lv <- P.sample(p)` (R13, R42). -/
def State.sample (s : State) (p : Byte) : Level × State :=
  let lv := s.lineLevel p s.drawLevel.1
  (lv, s.drawLevel.2.emit (.sample p lv))

/-- `k <- T.available()` (R36). -/
def State.available (s : State) : Nat × State :=
  (s.drawCount.1, s.drawCount.2.emit (.tAvail s.drawCount.1))

/-- `b <- T.read()` (R36). -/
def State.readByte (s : State) : Byte × State :=
  (s.drawByte.1, s.drawByte.2.emit (.tRead s.drawByte.1))

/-- One pin's part of fault entry: a driven pin is set to `INPUT` (R241). -/
def State.releaseIfDriven (s : State) (p : Byte) : State :=
  if s.modeOf p = .output then s.setMode p .input else s

/-- The pins of a stopped CLR are released, SDA first (R241). -/
def State.releasePins (s : State) : State :=
  if s.fsm.family = .clear then (s.releaseIfDriven s.sdaPin).releaseIfDriven s.sclPin else s

/-- Fault entry, `raise Fault(c)` (R241): the one operation that takes a fault. There is no return from
it; only `State.applyReset` leaves `FAULT` (R242, R258). -/
def State.raiseFault (s : State) (c : FaultCause) : State :=
  ({ s.releasePins with faultCause := c }.emit (.fault c)).goto .fault

/-- The accept step of a word that has a format (R111): latch the word, make the checks, start the
command with `start` or take the fault. The checks read only the word, `cfg_valid` and `xport_ready`. -/
def accept (i : Instr) (start : State → State) (s : State) : Answer :=
  match firstFailingCheck i s with
  | .noFault => .next (start (s.latch (encode i)))
  | c => .next ((s.latch (encode i)).raiseFault c)

/-- The accept step of a reserved word (R111, R116, R243). -/
def acceptReserved (w : Word) (s : State) : State := (s.latch w).raiseFault .illegalCommand

/-- Reset (R280): every element of R31 at its reset value. What is not the block's (its parameters, the
schedule, the collaborators' answers and the Host's record of its reads) stays (log entry 9). -/
def State.applyReset (s : State) : State :=
  { State.reset with
    params := s.params
    schedule := s.schedule
    countAnswers := s.countAnswers
    byteAnswers := s.byteAnswers
    levelAnswers := s.levelAnswers
    freeDraws := s.freeDraws
    reads := s.reads }

end Sys2Proof.Machine
end

