-- ==== Sys2Proof/Machine/BusRecovery.lean ====
section
/-! DEFINITION. The BusRecovery command CLR (41_bus_recovery.md): one definition per row of the state
table R185 that does more than one primitive, and the table itself in `execClr`. -/

namespace Sys2Proof.Machine

/-- The pins are latched when CLR is accepted (R49, R111). -/
def startClr (sda scl : Byte) (s : State) : State :=
  { s with sdaPin := sda, sclPin := scl }.goto .cbInit

/-- `CB_INIT` (R186): hand the pins over if there is a bus controller; the transport is no longer ready. -/
def handOver (s : State) : State :=
  { (if s.params.hasBusController then s.emit .ctrlOff else s) with xportReady := false }.goto .cbRelSda

/-- `CB_CHK_SCL` (R190): one sample of SCL decides the status-1 exit. -/
def checkScl (s : State) : State :=
  if (s.sample s.sclPin).1 = Level.low then { (s.sample s.sclPin).2 with st := 1 }.goto .cbFinSda
  else (s.sample s.sclPin).2.goto .cbChkSda

/-- `CB_CHK_SDA` (R191). -/
def checkSda (s : State) : State :=
  { (s.sample s.sdaPin).2 with
    sdaLow := (s.sample s.sdaPin).1 == Level.low
    retries := s.params.nClockPulses }.goto .cbLoop

/-- `CB_LOOP` (R192), an internal step. -/
def pulseLoop (s : State) : State :=
  if s.sdaLow = false then s.goto .cbStart
  else if s.retries = 0 then { s with st := 3 }.goto .cbFinSda
  else { s with retries := s.retries - 1 }.goto .cbPulseLow

/-- `CB_STR_CHK` (R199). -/
def stretchCheck (s : State) : State :=
  { (s.sample s.sclPin).2 with
    sclLow := (s.sample s.sclPin).1 == Level.low
    polls := s.params.nStretchPolls }.goto .cbStrTest

/-- `CB_STR_TEST` (R200), an internal step. -/
def stretchTest (s : State) : State :=
  if s.sclLow = false then s.goto .cbRecheckSda
  else if s.polls = 0 then { s with st := 2 }.goto .cbFinSda
  else { s with polls := s.polls - 1 }.goto .cbStrWait

/-- `CB_STR_SAMPLE` (R202). -/
def stretchSample (s : State) : State :=
  { (s.sample s.sclPin).2 with sclLow := (s.sample s.sclPin).1 == Level.low }.goto .cbStrTest

/-- `CB_RECHECK_SDA` (R203). -/
def recheckSda (s : State) : State :=
  { (s.sample s.sdaPin).2 with sdaLow := (s.sample s.sdaPin).1 == Level.low }.goto .cbLoop

/-- `CB_STOP_HOLD` (R207): the bus clear ends and cannot fail. -/
def stopHold (s : State) : State :=
  { s.wait s.params.tSdaHold with st := 0 }.goto .cbFinSda

/-- `CB_FIN_SCL` (R209): the last pin is released and the status becomes the result. -/
def reportStatus (s : State) : State :=
  { s.setMode s.sclPin .input with result := s.st.setWidth 32, resultValid := true }.finish .clr
    (some (s.st.setWidth 32))

/-- CLR (R183 to R209): the state table of R185. -/
def execClr (sda scl : Byte) (s : State) : Answer :=
  match s.fsm with
  | .idle => accept (.clr sda scl) (startClr sda scl) s
  | .fault => .next s
  | .cbInit => .next (handOver s)
  | .cbRelSda => .next ((s.setMode s.sdaPin .inputPullup).goto .cbRelScl)
  | .cbRelScl => .next ((s.setMode s.sclPin .inputPullup).goto .cbSettle)
  | .cbSettle => .next ((s.wait s.params.tSettle).goto .cbChkScl)
  | .cbChkScl => .next (checkScl s)
  | .cbChkSda => .next (checkSda s)
  | .cbLoop => .next (pulseLoop s)
  | .cbPulseLow => .next ((s.setMode s.sclPin .output).goto .cbHoldLow)
  | .cbHoldLow => .next ((s.wait s.params.tPulseLow).goto .cbPulseRel)
  | .cbPulseRel => .next ((s.setMode s.sclPin .inputPullup).goto .cbHoldHigh)
  | .cbHoldHigh => .next ((s.wait s.params.tPulseHigh).goto .cbStrChk)
  | .cbStrChk => .next (stretchCheck s)
  | .cbStrTest => .next (stretchTest s)
  | .cbStrWait => .next ((s.wait s.params.tPoll).goto .cbStrSample)
  | .cbStrSample => .next (stretchSample s)
  | .cbRecheckSda => .next (recheckSda s)
  | .cbStart => .next ((s.setMode s.sdaPin .output).goto .cbStartHold)
  | .cbStartHold => .next ((s.wait s.params.tSdaHold).goto .cbStop)
  | .cbStop => .next ((s.setMode s.sdaPin .inputPullup).goto .cbStopHold)
  | .cbStopHold => .next (stopHold s)
  | .cbFinSda => .next ((s.setMode s.sdaPin .input).goto .cbFinScl)
  | .cbFinScl => .next (reportStatus s)
  | _ => .fault .foreignState

end Sys2Proof.Machine
end

