-- ==== Sys2Proof/Machine/RegisterProtocol.lean ====
section
/-! DEFINITION. The RegisterProtocol commands CFG, WR, RDU and RDS (40_register_protocol.md). A meaning is
the one sequencer step the command takes: the accept step in `IDLE`, and then the step its state names. -/

namespace Sys2Proof.Machine

/-- CFG (R146): it completes in the accept step. -/
def startCfg (addr : Byte) (s : State) : State :=
  { s with devaddr := addr.setWidth 7, cfgValid := true }.finish .cfg none

/-- CFG (R146). In `FAULT` no command is taken (R242). -/
def execCfg (addr : Byte) (s : State) : Answer :=
  match s.fsm with
  | .idle => accept (.cfg addr) (startCfg addr) s
  | .fault => .next s
  | _ => .fault .foreignState

/-- `T.begin(devaddr)` (R143, R148, R149). -/
def beginTransaction (s : State) : State := s.emit (.tBegin s.devaddr)

/-- WR (R147, R148). -/
def execWr (reg val : Byte) (s : State) : Answer :=
  match s.fsm with
  | .idle => accept (.wr reg val) (fun t => t.goto .wBegin) s
  | .fault => .next s
  | .wBegin => .next ((beginTransaction s).goto .wReg)
  | .wReg => .next ((s.emit (.tWrite reg)).goto .wVal)
  | .wVal => .next ((s.emit (.tWrite val)).goto .wEnd)
  | .wEnd => .next ((s.emit .tEnd).finish .wr none)
  | _ => .fault .foreignState

/-- `R_POLL` (R152): ask how many bytes are there and wait until the count reaches `n`. -/
def pollStep (n : BitVec 3) (s : State) : State :=
  if n.toNat ≤ s.available.1 then
    { s.available.2 with acc := 0, idx := 0 }.goto .rRead
  else s.available.2.goto .rPoll

/-- `R_READ` (R155): one byte, most significant first. `buf` has no cell past 3 (log entry 10). -/
def readStep (n : BitVec 3) (s : State) : State :=
  let b := s.readByte.1
  { s.readByte.2 with
    buf := s.buf.setIfInBounds s.idx.toNat b
    acc := shiftIn s.acc b
    idx := s.idx + 1 }.goto (if s.idx + 1 = n then .rDone else .rRead)

/-- `R_DONE` (R156): the result of the read and its outcome. -/
def deliver (op : Op) (value : Word) (s : State) : State :=
  { s with result := value, resultValid := true }.finish op (some value)

/-- The value RDU delivers: `acc` (R150, R156). -/
def unsignedValue (_ : BitVec 3) (acc : Word) : Word := acc

/-- The value RDS delivers: `sx(acc, n)` (R151, R156, R158). -/
def signedValue (n : BitVec 3) (acc : Word) : Word := signExtend acc n

/-- The steps RDU and RDS share (R149, R152, R155, R156); they differ only in the value `R_DONE` delivers
(R162). -/
def readCommand (i : Instr) (reg : Byte) (n : BitVec 3) (value : Word → Word) (s : State) : Answer :=
  match s.fsm with
  | .idle => accept i (fun t => t.goto .rBegin) s
  | .fault => .next s
  | .rBegin => .next ((beginTransaction s).goto .rReg)
  | .rReg => .next ((s.emit (.tWrite reg)).goto .rEnd)
  | .rEnd => .next ((s.emit .tEnd).goto .rReq)
  | .rReq => .next ((s.emit (.tRequest s.devaddr n)).goto .rPoll)
  | .rPoll => .next (pollStep n s)
  | .rRead => .next (readStep n s)
  | .rDone => .next (deliver i.op (value s.acc) s)
  | _ => .fault .foreignState

/-- RDU (R150). -/
def execRdu (reg : Byte) (nb : BitVec 3) (s : State) : Answer :=
  readCommand (.rdu reg nb) reg nb (unsignedValue nb) s

/-- RDS (R151). -/
def execRds (reg : Byte) (nb : BitVec 3) (s : State) : Answer :=
  readCommand (.rds reg nb) reg nb (signedValue nb) s

end Sys2Proof.Machine
end

