-- ==== Sys2Proof/Machine/Dispatch.lean ====
section
/-! DEFINITION. One arm per command: the sequencer step that the command takes in a state. -/

namespace Sys2Proof.Machine

def exec (i : Instr) (s : State) : Host.Outcome State Fault Refusal :=
  match i with
  | .cfg addr => Sys2Proof.Machine.execCfg addr s
  | .wr reg val => Sys2Proof.Machine.execWr reg val s
  | .rdu reg nb => Sys2Proof.Machine.execRdu reg nb s
  | .rds reg nb => Sys2Proof.Machine.execRds reg nb s
  | .clr sda scl => Sys2Proof.Machine.execClr sda scl s

end Sys2Proof.Machine
end

