-- ==== Sys2Proof/Machine/Turns.lean ====
section
/-! DEFINITION. Which agent moves next, and what the Host's interactions do (R57, R256). A command is run
by `exec`, which comes after this file; so a turn answers what is to be done. -/

namespace Sys2Proof.Machine

/-- What a turn comes to: a command's step to run in a state, or an answer already. -/
inductive Plan where
  | run (i : Instr) (s : State)
  | settled (o : Answer)

/-- The value a Host read answers; none where the spec refuses the read (R52 to R56). -/
def State.hostRegister (s : State) (n : Nat) : Option Word :=
  if s.busy then none
  else match n with
    | 0 => some s.statusWord
    | 1 => if s.resultValid then some s.result else none
    | 2 => if s.cfgValid then some (s.devaddr.setWidth 32) else none
    | _ => none

/-- `Read(n)` (R57): the answer is recorded for the Host (log entry 6), the block is unchanged. -/
def hostRead (n : Nat) (s : State) : Answer :=
  match s.hostRegister n with
  | some v => .next { s with reads := s.reads ++ [(n, v)] }
  | none => .refused (.registerRead n)

/-- `InitTransport` (R57). -/
def hostInitTransport (s : State) : Answer :=
  if s.fsm = .idle then .next { s with xportReady := true } else .refused .initTransport

/-- `Issue(w)` (R57, R111, R242, R244): in `FAULT` nothing; while `BUSY = 1` the fault CONCURRENT_USE;
in `IDLE` the accept step. -/
def hostIssue (w : Word) (s : State) : Plan :=
  if s.fsm = .fault then .settled (.next s)
  else if s.busy then .settled (.next (s.raiseFault .concurrentUse))
  else match decode w with
    | .ok i => .run i s
    | .error _ => .settled (.next (acceptReserved w s))

/-- The Host's turn (R57). -/
def hostTurn (a : HostAction) (s : State) : Plan :=
  match a with
  | .issue w => hostIssue w s
  | .read n => .settled (hostRead n s)
  | .initTransport => .settled (hostInitTransport s)
  | .reset => .settled (.next s.applyReset)

/-- The sequencer's turn: the step of the running command, read from the latched word (R34); in `IDLE` it
waits for a command and in `FAULT` it takes no step (R242, R282). -/
def sequencerTurn (s : State) : Plan :=
  if s.busy then
    match decode s.cmd with
    | .ok i => .run i s
    | .error _ => .settled (.fault .noCommand)
  else .settled (.next s)

/-- The next turn of the schedule (log entry 4); with none listed the sequencer moves. -/
def nextTurn (s : State) : Plan :=
  match s.schedule with
  | [] => sequencerTurn s
  | .sequencer :: rest => sequencerTurn (s.withSchedule rest)
  | .host a :: rest => hostTurn a (s.withSchedule rest)
  | .hostWhenReady a :: rest =>
    if s.busy then sequencerTurn s else hostTurn a (s.withSchedule rest)

/-- The state in which the Host is about to issue `w` to an idle block (log entry 11). -/
def State.aboutToIssue (s : State) (w : Word) : State :=
  { s with fsm := .idle, schedule := .host (.issue w) :: s.schedule }

end Sys2Proof.Machine
end

