-- ==== Sys2Proof/Machine/Step.lean ====
section
/-! DEFINITION. One step of the model: the next turn of the schedule, and the command step it asks for. -/

namespace Sys2Proof.Machine

/-- One step of one agent (R14, R30). -/
def step (s : State) : Host.Outcome State Fault Refusal :=
  match nextTurn s with
  | .run i t => exec i t
  | .settled o => o

/-- The state whose next step accepts the command word `w`: commands are fetched from no memory (R96), so
the word is placed on the command port of an idle block (log entry 11). -/
def State.withFetchWord (s : State) (nbits w : Nat) : State :=
  s.aboutToIssue (BitVec.ofNat 32 (w % 2 ^ nbits))

end Sys2Proof.Machine
end

