-- ==== Sys2Proof/Safety.lean ====
section
/-! DEFINITION. The terms claims use: what a coherent state is, which lines may be driven, which events are
port primitives, and what a command comes to as a function of its collaborators' answers. -/

namespace Sys2Proof.Machine

/-- The group of sequencer states a command runs in (R32). CFG has no state of its own (R146). -/
def instrFamily : Instr → Family
  | .cfg _ => .quiet
  | .wr _ _ => .write
  | .rdu _ _ => .read
  | .rds _ _ => .read
  | .clr _ _ => .clear

/-- The bytes read so far fit the state of a read of `n` bytes (R155). -/
def State.IdxFits (s : State) (n : BitVec 3) : Prop :=
  (s.fsm = .rRead → s.idx.toNat < n.toNat) ∧ (s.fsm = .rDone → s.idx = n)

/-- What the accept step latched and checked for the running command still holds (R111, R142, R251). -/
def State.Runs (s : State) (i : Instr) : Prop :=
  instrFamily i = s.fsm.family ∧ i.wellFormed s.params = true ∧
    match i with
    | .cfg _ => True
    | .wr _ _ => s.cfgValid = true ∧ s.xportReady = true
    | .rdu _ n => s.cfgValid = true ∧ s.xportReady = true ∧ s.IdxFits n
    | .rds _ n => s.cfgValid = true ∧ s.xportReady = true ∧ s.IdxFits n
    | .clr sda scl => s.sdaPin = sda ∧ s.sclPin = scl

/-- While a command runs, `cmd` holds it and `fsm` is one of its states (R32, R34). -/
def State.Coherent (s : State) : Prop :=
  s.busy = true → ∃ i, decode s.cmd = .ok i ∧ s.Runs i

/-- `fault_cause` names a fault exactly in `FAULT` (R51, R242). -/
def State.CauseFits (s : State) : Prop := s.fsm = .fault ↔ s.faultCause ≠ .noFault

/-- The states in which `retries` has been loaded for the running CLR (R191, R192). -/
def retriesLoaded : Fsm → Bool
  | .cbLoop | .cbPulseLow | .cbHoldLow | .cbPulseRel | .cbHoldHigh | .cbStrChk | .cbStrTest
  | .cbStrWait | .cbStrSample | .cbRecheckSda => true
  | _ => false

/-- The states in which `polls` has been loaded for the current pulse (R199, R200). -/
def pollsLoaded : Fsm → Bool
  | .cbStrTest | .cbStrWait | .cbStrSample => true
  | _ => false

/-- The loaded counters are at most the counts they were loaded with (R46, R193, R199). -/
def State.CountersBounded (s : State) : Prop :=
  (retriesLoaded s.fsm = true → s.retries.toNat ≤ s.params.nClockPulses.toNat) ∧
    (pollsLoaded s.fsm = true → s.polls.toNat ≤ s.params.nStretchPolls.toNat)

/-- The modes of the SDA pin and of the SCL pin on entry to a state of CLR, where the command has set
them (R185, R214, R215). -/
def expectedModes : Fsm → Option PinMode × Option PinMode
  | .cbRelScl => (some .inputPullup, none)
  | .cbSettle | .cbChkScl | .cbChkSda | .cbLoop | .cbPulseLow => (some .inputPullup, some .inputPullup)
  | .cbHoldLow | .cbPulseRel => (some .inputPullup, some .output)
  | .cbHoldHigh | .cbStrChk | .cbStrTest | .cbStrWait | .cbStrSample | .cbRecheckSda | .cbStart =>
    (some .inputPullup, some .inputPullup)
  | .cbStartHold | .cbStop => (some .output, some .inputPullup)
  | .cbStopHold | .cbFinSda => (some .inputPullup, some .inputPullup)
  | .cbFinScl => (some .input, some .inputPullup)
  | _ => (none, none)

/-- A pin has an expected mode, where one is given. -/
def State.HasMode (s : State) (p : Byte) (m : Option PinMode) : Prop := ∀ x ∈ m, s.modeOf p = x

/-- The lines are driven as R214 and R215 say: the two pins of the running CLR differ and are in their
expected modes, and no other pin is driven. -/
def State.LinesSafe (s : State) : Prop :=
  (s.fsm.family = .clear → s.sdaPin ≠ s.sclPin) ∧
  s.HasMode s.sdaPin (expectedModes s.fsm).1 ∧
  s.HasMode s.sclPin (expectedModes s.fsm).2 ∧
  ∀ p : Byte, s.modeOf p = .output →
    (p = s.sdaPin ∧ (expectedModes s.fsm).1 = some .output) ∨
    (p = s.sclPin ∧ (expectedModes s.fsm).2 = some .output)

/-- Every pin is released (R41). -/
def State.AllReleased (s : State) : Prop := ∀ p : Byte, s.modeOf p ≠ .output

/-- The event of a Transport primitive (R36, R58). -/
def Event.isTransport : Event → Bool
  | .tBegin _ | .tWrite _ | .tEnd | .tRequest _ _ | .tAvail _ | .tRead _ => true
  | _ => false

/-- The event of a Pin I/O primitive (R39, R58). -/
def Event.isPin : Event → Bool
  | .mode _ _ | .sample _ _ | .wait _ | .ctrlOff => true
  | _ => false

/-- The event drives the pin `p` low. -/
def Event.drives (p : Byte) (e : Event) : Bool := e == .mode p .output

/-- `u = b0 * 2^(8(n-1)) + ... + b(n-1)` (R86). -/
def bigEndian : List Byte → Nat
  | [] => 0
  | b :: rest => b.toNat * 2 ^ (8 * rest.length) + bigEndian rest

/-- `signed_N(a)` for an `8n`-bit value (R12, R159). -/
def signedBytes (bytes : List Byte) : Int :=
  if bigEndian bytes < 2 ^ (8 * bytes.length - 1) then (bigEndian bytes : Int)
  else (bigEndian bytes : Int) - 2 ^ (8 * bytes.length)

/-- The stretch wait over the SCL samples of one pulse, with so many polls left: whether SCL came HIGH,
and the samples after it; none if the samples run out (R199, R200, R211). -/
def stretchOutcome : Nat → List Level → Option (Bool × List Level)
  | _, [] => none
  | _, .high :: rest => some (true, rest)
  | 0, .low :: rest => some (false, rest)
  | polls + 1, .low :: rest => stretchOutcome polls rest

/-- The status and the number of pulses of the pulse loop, with so many polls a pulse, so many retries left
and `j` pulses driven; none if the samples run out (R211). -/
def pulseOutcome (polls : Nat) : Nat → Nat → List Level → Option (BitVec 2 × Nat)
  | 0, j, _ => some (3, j)
  | retries + 1, j, samples =>
    match stretchOutcome polls samples with
    | none => none
    | some (false, _) => some (2, j + 1)
    | some (true, []) => none
    | some (true, .high :: _) => some (0, j + 1)
    | some (true, .low :: rest) => pulseOutcome polls retries (j + 1) rest

/-- The status of CLR and its number of pulses as a function of the Environment's answers, in order; none
if the answers run out (R211, whose 20 pulses and samples 0..20 are the counts of R9). -/
def clrOutcome (p : Params) : List Level → Option (BitVec 2 × Nat)
  | .low :: _ => some (1, 0)
  | .high :: .high :: _ => some (0, 0)
  | .high :: .low :: rest => pulseOutcome p.nStretchPolls.toNat p.nClockPulses.toNat 0 rest
  | _ => none

end Sys2Proof.Machine
end

