-- ==== Sys2Proof/Certificates/Slice0/Obligations.lean ====
section
/-! DEFINITION. The statements for the provers. -/

open Sys2Proof Sys2Proof.Machine

/-! ## Encoding -/

/-- R114, R118: no bit of an encoding is dropped: decoding the word of any command, at every value of every
operand, gives that command back. -/
def Obligations.DecodeOfEncode : Prop :=
  ∀ i : Instr, decode (encode i) = .ok i

/-- R114, R117: a word that has a format is the word of the command it decodes to, so the word the accept
step latches is the word issued (log entry 13). -/
def Obligations.EncodeOfDecode : Prop :=
  ∀ (w : Word) (i : Instr), decode w = .ok i → encode i = w

/-- R114: `(w & mask) = match` for each of the five formats, with the operands in their fields. -/
def Obligations.FormatsAreMaskAndMatch : Prop :=
  ∀ w : Word,
    (w &&& 0xFF00FFFF#32 = 0x00000001#32 ↔ decode w = .ok (.cfg (w.extractLsb' 16 8))) ∧
    (w &&& 0xFF0000FF#32 = 0x00000002#32 ↔
      decode w = .ok (.wr (w.extractLsb' 8 8) (w.extractLsb' 16 8))) ∧
    (w &&& 0xFFFF008F#32 = 0x00000003#32 ↔
      decode w = .ok (.rdu (w.extractLsb' 8 8) (w.extractLsb' 4 3))) ∧
    (w &&& 0xFFFF008F#32 = 0x00000004#32 ↔
      decode w = .ok (.rds (w.extractLsb' 8 8) (w.extractLsb' 4 3))) ∧
    (w &&& 0x0000FFFF#32 = 0x00000005#32 ↔
      decode w = .ok (.clr (w.extractLsb' 16 8) (w.extractLsb' 24 8)))

/-- R117: a word matches exactly one format and decodes to a command of it, or it matches none and is
reserved. -/
def Obligations.EveryWordHasOneFormatOrNone : Prop :=
  ∀ w : Word,
    (∃ i, decode w = .ok i ∧
      [Op.cfg, Op.wr, Op.rdu, Op.rds, Op.clr].filter (fun op => w &&& op.mask == op.pattern) = [i.op]) ∨
    (∃ r, decode w = .error r ∧
      [Op.cfg, Op.wr, Op.rdu, Op.rds, Op.clr].filter (fun op => w &&& op.mask == op.pattern) = [])

/-- R119: example words of the spec. -/
def Obligations.ExampleWordsDecode : Prop :=
  decode 0x00680001#32 = .ok (.cfg 0x68) ∧ decode 0x00181B02#32 = .ok (.wr 0x1B 0x18) ∧
  decode 0x00007513#32 = .ok (.rdu 0x75 1) ∧ decode 0x00001044#32 = .ok (.rds 0x10 4) ∧
  decode 0x13120005#32 = .ok (.clr 18 19) ∧ decode 0x00000000#32 = .error .opcode ∧
  decode 0x01006B02#32 = .error (.fixedField .wr)

/-! ## The accept step -/

/-- R111, R110: a word issued to an idle block, that has a format, is run by `exec` in the state with that
turn taken from the schedule. -/
def Obligations.StepRunsIssuedWord : Prop :=
  ∀ (s : State) (w : Word) (i : Instr) (rest : List Turn), s.fsm = .idle → decode w = .ok i →
    (s.schedule = .host (.issue w) :: rest ∨ s.schedule = .hostWhenReady (.issue w) :: rest) →
    step s = exec i (s.withSchedule rest)

/-- R34, R32: while a command runs, the sequencer's step is `exec` of the latched word. When that step comes
is the model's choice (log entry 4, DESIGN CHOICE): when no turn is listed, when its turn is listed, and,
with the Host's turn left listed, while the Host waits for `BUSY = 0`. -/
def Obligations.StepRunsLatchedWord : Prop :=
  ∀ (s : State) (i : Instr), s.fsm ≠ .idle → s.fsm ≠ .fault → decode s.cmd = .ok i →
    (s.schedule = [] → step s = exec i s) ∧
    (∀ rest, s.schedule = .sequencer :: rest → step s = exec i (s.withSchedule rest)) ∧
    (∀ a rest, s.schedule = .hostWhenReady a :: rest → step s = exec i s)

/-- R57, R286: a Host that waits for `BUSY = 0` acts, once it is 0, as a Host that acts at once (the schedule
is log entry 4, DESIGN CHOICE). -/
def Obligations.HostActsOnceReady : Prop :=
  ∀ (s : State) (a : HostAction) (rest : List Turn), s.fsm = .idle ∨ s.fsm = .fault →
    s.schedule = .hostWhenReady a :: rest → step s = step (s.withSchedule (.host a :: rest))

/-- R116, R243: a reserved word issued to an idle block faults ILLEGAL_COMMAND, and nothing but the latched
word, the cause, the event and `fsm` changes. -/
def Obligations.ReservedWordFaults : Prop :=
  ∀ (s : State) (w : Word) (rest : List Turn), s.fsm = .idle →
    s.schedule = .host (.issue w) :: rest →
    (w.extractLsb' 0 4 = 0#4 ∨ 6 ≤ (w.extractLsb' 0 4).toNat ∨
      (w.extractLsb' 0 4 = 1#4 ∧ (w.extractLsb' 4 3 ≠ 0#3 ∨ w.extractLsb' 7 1 ≠ 0#1 ∨
        w.extractLsb' 8 8 ≠ 0#8 ∨ w.extractLsb' 24 8 ≠ 0#8)) ∨
      (w.extractLsb' 0 4 = 2#4 ∧ (w.extractLsb' 4 3 ≠ 0#3 ∨ w.extractLsb' 7 1 ≠ 0#1 ∨
        w.extractLsb' 24 8 ≠ 0#8)) ∨
      ((w.extractLsb' 0 4 = 3#4 ∨ w.extractLsb' 0 4 = 4#4) ∧ (w.extractLsb' 7 1 ≠ 0#1 ∨
        w.extractLsb' 16 8 ≠ 0#8 ∨ w.extractLsb' 24 8 ≠ 0#8)) ∨
      (w.extractLsb' 0 4 = 5#4 ∧ (w.extractLsb' 4 3 ≠ 0#3 ∨ w.extractLsb' 7 1 ≠ 0#1 ∨
        w.extractLsb' 8 8 ≠ 0#8))) →
    step s = .next { s with
      schedule := rest, cmd := w, faultCause := .illegalCommand,
      history := s.history ++ [.fault .illegalCommand], fsm := .fault }

/-- R245 to R250 in the order of R251: what the accept step of each command comes to. A fault latches the
word and writes the cause, the event and `fsm`; otherwise the command starts. -/
def Obligations.AcceptTakesFirstFailingCheck : Prop :=
  ∀ s : State, s.fsm = .idle →
    let faulted := fun (i : Instr) (c : FaultCause) => { s with
      cmd := encode i, faultCause := c, history := s.history ++ [.fault c], fsm := .fault }
    (∀ addr, exec (.cfg addr) s = .next (
      if 127 < addr.toNat then faulted (.cfg addr) .addrRange
      else { s with
        cmd := encode (.cfg addr), devaddr := addr.setWidth 7, cfgValid := true,
        history := s.history ++ [.done .cfg none] })) ∧
    (∀ reg val, exec (.wr reg val) s = .next (
      if s.cfgValid = false then faulted (.wr reg val) .notConfigured
      else if s.xportReady = false then faulted (.wr reg val) .transportDisabled
      else { s with cmd := encode (.wr reg val), fsm := .wBegin })) ∧
    (∀ reg nb, exec (.rdu reg nb) s = .next (
      if nb.toNat = 0 ∨ 4 < nb.toNat then faulted (.rdu reg nb) .numBytesRange
      else if s.cfgValid = false then faulted (.rdu reg nb) .notConfigured
      else if s.xportReady = false then faulted (.rdu reg nb) .transportDisabled
      else { s with cmd := encode (.rdu reg nb), fsm := .rBegin })) ∧
    (∀ reg nb, exec (.rds reg nb) s = .next (
      if nb.toNat = 0 ∨ 4 < nb.toNat then faulted (.rds reg nb) .numBytesRange
      else if s.cfgValid = false then faulted (.rds reg nb) .notConfigured
      else if s.xportReady = false then faulted (.rds reg nb) .transportDisabled
      else { s with cmd := encode (.rds reg nb), fsm := .rBegin })) ∧
    (∀ sda scl, exec (.clr sda scl) s = .next (
      if s.params.pinCount ≤ sda.toNat ∨ s.params.pinCount ≤ scl.toNat then
        faulted (.clr sda scl) .pinRange
      else if sda = scl then faulted (.clr sda scl) .pinConflict
      else { s with
        cmd := encode (.clr sda scl), sdaPin := sda, sclPin := scl, fsm := .cbInit }))

/-- R146: CFG with an address in 0..127 completes in its accept step, and writes nothing but the latched
word, `devaddr`, `cfg_valid` and the event. -/
def Obligations.CfgCompletes : Prop :=
  ∀ (s : State) (addr : Byte), s.fsm = .idle → addr.toNat ≤ 127 →
    exec (.cfg addr) s = .next { s with
      cmd := encode (.cfg addr), devaddr := addr.extractLsb' 0 7, cfgValid := true,
      history := s.history ++ [.done .cfg none] }

/-! ## WR, RDU and RDS step by step -/

/-- R148: the four steps of WR, each with everything else unchanged. -/
def Obligations.WrSteps : Prop :=
  ∀ (s : State) (reg val : Byte),
    (s.fsm = .wBegin → exec (.wr reg val) s = .next { s with
      history := s.history ++ [.tBegin s.devaddr], fsm := .wReg }) ∧
    (s.fsm = .wReg → exec (.wr reg val) s = .next { s with
      history := s.history ++ [.tWrite reg], fsm := .wVal }) ∧
    (s.fsm = .wVal → exec (.wr reg val) s = .next { s with
      history := s.history ++ [.tWrite val], fsm := .wEnd }) ∧
    (s.fsm = .wEnd → exec (.wr reg val) s = .next { s with
      history := s.history ++ [.tEnd, .done .wr none], fsm := .idle })

/-- R149: the framing steps of a read, the same for RDU and RDS, each with everything else unchanged. -/
def Obligations.ReadFramingSteps : Prop :=
  ∀ (s : State) (reg : Byte) (n : BitVec 3) (i : Instr), i = .rdu reg n ∨ i = .rds reg n →
    (s.fsm = .rBegin → exec i s = .next { s with
      history := s.history ++ [.tBegin s.devaddr], fsm := .rReg }) ∧
    (s.fsm = .rReg → exec i s = .next { s with
      history := s.history ++ [.tWrite reg], fsm := .rEnd }) ∧
    (s.fsm = .rEnd → exec i s = .next { s with
      history := s.history ++ [.tEnd], fsm := .rReq }) ∧
    (s.fsm = .rReq → exec i s = .next { s with
      history := s.history ++ [.tRequest s.devaddr n], fsm := .rPoll })

/-- R152: one poll. `T.available()` answers `k`; the read begins when `k >= n`. -/
def Obligations.PollStep : Prop :=
  ∀ (s : State) (reg : Byte) (n : BitVec 3) (i : Instr), i = .rdu reg n ∨ i = .rds reg n →
    s.fsm = .rPoll →
    exec i s = .next (
      if n.toNat ≤ s.available.1 then { s.available.2 with acc := 0, idx := 0, fsm := .rRead }
      else { s.available.2 with fsm := .rPoll }) ∧
    s.available.2.history = s.history ++ [.tAvail s.available.1]

/-- R155: one byte of a read, most significant first (`idx` is below `n`, so below 4, in every coherent
state). -/
def Obligations.ReadByteStep : Prop :=
  ∀ (s : State) (reg : Byte) (n : BitVec 3) (i : Instr), i = .rdu reg n ∨ i = .rds reg n →
    s.fsm = .rRead → (bound : s.idx.toNat < 4) →
    exec i s = .next { s.readByte.2 with
      buf := s.buf.set s.idx.toNat s.readByte.1 bound
      acc := (s.acc <<< 8) ||| s.readByte.1.setWidth 32
      idx := s.idx + 1
      fsm := if s.idx + 1 = n then .rDone else .rRead } ∧
    s.readByte.2.history = s.history ++ [.tRead s.readByte.1]

/-- R156: the last step of RDU and of RDS. -/
def Obligations.ReadDoneStep : Prop :=
  ∀ (s : State) (reg : Byte) (n : BitVec 3), s.fsm = .rDone →
    exec (.rdu reg n) s = .next { s with
      result := s.acc, resultValid := true,
      history := s.history ++ [.done .rdu (some s.acc)], fsm := .idle } ∧
    exec (.rds reg n) s = .next { s with
      result := (s.acc <<< (32 - 8 * n.toNat)).sshiftRight (32 - 8 * n.toNat), resultValid := true,
      history := s.history ++
        [.done .rds (some ((s.acc <<< (32 - 8 * n.toNat)).sshiftRight (32 - 8 * n.toNat)))],
      fsm := .idle }

/-- R158, R159: the two shifts are the sign extension of the low `8n` bits, and its value. -/
def Obligations.SignExtensionByShifts : Prop :=
  ∀ (acc : Word) (n : BitVec 3), 1 ≤ n.toNat → n.toNat ≤ 4 →
    signExtend acc n = (acc.extractLsb' 0 (8 * n.toNat)).signExtend 32 ∧
    (acc.toNat < 2 ^ (8 * n.toNat) →
      (signExtend acc n).toInt =
        if acc.getLsbD (8 * n.toNat - 1) then (acc.toNat : Int) - 2 ^ (8 * n.toNat) else acc.toNat)

/-- R157, R86: shifting in up to four bytes gives their big-endian value exactly, with no wrap-around. -/
def Obligations.AssemblyIsBigEndian : Prop :=
  ∀ bytes : List Byte, bytes.length ≤ 4 →
    (bytes.foldl shiftIn 0).toNat = bigEndian bytes ∧ bigEndian bytes < 2 ^ (8 * bytes.length)

/-- R37, R42: what a collaborator's primitive answers and what it leaves unchanged. An answer is the next
one listed, else a free value; that it comes from a list or from a counter is log entry 5 (DESIGN CHOICE).
A line the block drives reads LOW. -/
def Obligations.CollaboratorsAnswer : Prop :=
  ∀ (s : State) (p : Byte),
    (s.available.2 = { s with
      countAnswers := s.countAnswers.tail
      freeDraws := if s.countAnswers = [] then s.freeDraws + 1 else s.freeDraws
      history := s.history ++ [.tAvail s.available.1] } ∧
      s.available.1 = s.countAnswers.headD (Config.freeCount s.freeDraws)) ∧
    (s.readByte.2 = { s with
      byteAnswers := s.byteAnswers.tail
      freeDraws := if s.byteAnswers = [] then s.freeDraws + 1 else s.freeDraws
      history := s.history ++ [.tRead s.readByte.1] } ∧
      s.readByte.1 = s.byteAnswers.headD (Config.freeByte s.freeDraws)) ∧
    ((s.sample p).2 = { s with
      levelAnswers := s.levelAnswers.tail
      freeDraws := if s.levelAnswers = [] then s.freeDraws + 1 else s.freeDraws
      history := s.history ++ [.sample p (s.sample p).1] } ∧
      (s.sample p).1 = if s.modeOf p = .output then .low
        else s.levelAnswers.headD (Config.freeLevel s.freeDraws))

/-! ## Whole register commands -/

/-- R120: a WR issued to a ready block puts exactly its frame on the Transport and completes in five steps;
nothing else changes. -/
def Obligations.WrRunsItsFrame : Prop :=
  ∀ (s : State) (reg val : Byte), s.fsm = .idle → s.cfgValid = true → s.xportReady = true →
    s.schedule = [.host (.issue (encode (.wr reg val)))] →
    Host.Core.run Sys2Proof.core 5 s = .next { s with
      cmd := encode (.wr reg val), schedule := [],
      history := s.history ++
        [.tBegin s.devaddr, .tWrite reg, .tWrite val, .tEnd, .done .wr none] }

/-- R121, R122, R150, R157: an RDU of `n` bytes polls until the count reaches `n`, reads exactly `n` bytes and
delivers their big-endian value. -/
def Obligations.RduRunsAndDelivers : Prop :=
  ∀ (s : State) (reg : Byte) (n : BitVec 3) (few : List Nat) (k : Nat) (counts : List Nat)
    (bytes more : List Byte),
    s.fsm = .idle → s.cfgValid = true → s.xportReady = true →
    s.schedule = [.host (.issue (encode (.rdu reg n)))] →
    1 ≤ n.toNat → n.toNat ≤ 4 → bytes.length = n.toNat →
    (∀ c ∈ few, c < n.toNat) → n.toNat ≤ k →
    s.countAnswers = few ++ k :: counts → s.byteAnswers = bytes ++ more →
    ∃ t, Host.Core.run Sys2Proof.core (7 + few.length + bytes.length) s = .next t ∧
      t.fsm = .idle ∧ t.resultValid = true ∧ t.result.toNat = bigEndian bytes ∧
      t.history = s.history ++ [.tBegin s.devaddr, .tWrite reg, .tEnd, .tRequest s.devaddr n]
        ++ few.map .tAvail ++ [.tAvail k] ++ bytes.map .tRead ++ [.done .rdu (some t.result)] ∧
      t.devaddr = s.devaddr ∧ t.cfgValid = s.cfgValid ∧ t.xportReady = s.xportReady ∧
      t.faultCause = s.faultCause ∧ t.pinMode = s.pinMode ∧
      t.countAnswers = counts ∧ t.byteAnswers = more

/-- R151, R158, R159: an RDS does the same and delivers the value sign-extended from `8n` bits. -/
def Obligations.RdsRunsAndDelivers : Prop :=
  ∀ (s : State) (reg : Byte) (n : BitVec 3) (few : List Nat) (k : Nat) (counts : List Nat)
    (bytes more : List Byte),
    s.fsm = .idle → s.cfgValid = true → s.xportReady = true →
    s.schedule = [.host (.issue (encode (.rds reg n)))] →
    1 ≤ n.toNat → n.toNat ≤ 4 → bytes.length = n.toNat →
    (∀ c ∈ few, c < n.toNat) → n.toNat ≤ k →
    s.countAnswers = few ++ k :: counts → s.byteAnswers = bytes ++ more →
    ∃ t, Host.Core.run Sys2Proof.core (7 + few.length + bytes.length) s = .next t ∧
      t.fsm = .idle ∧ t.resultValid = true ∧ t.result.toInt = signedBytes bytes ∧
      t.history = s.history ++ [.tBegin s.devaddr, .tWrite reg, .tEnd, .tRequest s.devaddr n]
        ++ few.map .tAvail ++ [.tAvail k] ++ bytes.map .tRead ++ [.done .rds (some t.result)] ∧
      t.devaddr = s.devaddr ∧ t.cfgValid = s.cfgValid ∧ t.xportReady = s.xportReady ∧
      t.faultCause = s.faultCause ∧ t.pinMode = s.pinMode ∧
      t.countAnswers = counts ∧ t.byteAnswers = more

/-- R153: as long as the Transport answers fewer than `n`, a read stays in `R_POLL`, one event a poll, and
nothing else changes. -/
def Obligations.ReadWaitsWithoutBound : Prop :=
  ∀ (s : State) (reg : Byte) (n : BitVec 3) (few counts : List Nat),
    s.fsm = .rPoll → s.schedule = [] →
    (decode s.cmd = .ok (.rdu reg n) ∨ decode s.cmd = .ok (.rds reg n)) →
    (∀ c ∈ few, c < n.toNat) → s.countAnswers = few ++ counts →
    Host.Core.run Sys2Proof.core few.length s = .next { s with
      countAnswers := counts, history := s.history ++ few.map .tAvail }

/-! ## CLR step by step -/

/-- R186: the first step of CLR. -/
def Obligations.ClrHandsOver : Prop :=
  ∀ (s : State) (sda scl : Byte), s.fsm = .cbInit →
    exec (.clr sda scl) s = .next { s with
      history := s.history ++ (if s.params.hasBusController then [.ctrlOff] else []),
      xportReady := false, fsm := .cbRelSda }

/-- R187, R188, R189: both lines are released, SDA first, and the settle delay is waited out. -/
def Obligations.ClrReleasesAndSettles : Prop :=
  ∀ (s : State) (sda scl : Byte),
    (s.fsm = .cbRelSda → exec (.clr sda scl) s = .next { s with
      pinMode := s.pinMode.set s.sdaPin.toNat .inputPullup s.sdaPin.isLt
      history := s.history ++ [.mode s.sdaPin .inputPullup], fsm := .cbRelScl }) ∧
    (s.fsm = .cbRelScl → exec (.clr sda scl) s = .next { s with
      pinMode := s.pinMode.set s.sclPin.toNat .inputPullup s.sclPin.isLt
      history := s.history ++ [.mode s.sclPin .inputPullup], fsm := .cbSettle }) ∧
    (s.fsm = .cbSettle → exec (.clr sda scl) s = .next { s with
      history := s.history ++ [.wait s.params.tSettle], fsm := .cbChkScl })

/-- R190, R191: the two first samples. -/
def Obligations.ClrChecksTheLines : Prop :=
  ∀ (s : State) (sda scl : Byte),
    (s.fsm = .cbChkScl → exec (.clr sda scl) s = .next (
      if (s.sample s.sclPin).1 = .low then { (s.sample s.sclPin).2 with st := 1, fsm := .cbFinSda }
      else { (s.sample s.sclPin).2 with fsm := .cbChkSda })) ∧
    (s.fsm = .cbChkSda → exec (.clr sda scl) s = .next { (s.sample s.sdaPin).2 with
      sdaLow := decide ((s.sample s.sdaPin).1 = .low), retries := s.params.nClockPulses, fsm := .cbLoop }) ∧
    ∀ p, (s.sample p).2.history = s.history ++ [.sample p (s.sample p).1]

/-- R192: the loop test. -/
def Obligations.ClrLoopTest : Prop :=
  ∀ (s : State) (sda scl : Byte), s.fsm = .cbLoop →
    exec (.clr sda scl) s = .next (
      if s.sdaLow = false then { s with fsm := .cbStart }
      else if s.retries = 0 then { s with st := 3, fsm := .cbFinSda }
      else { s with retries := s.retries - 1, fsm := .cbPulseLow })

/-- R195 to R198: one clock pulse. -/
def Obligations.ClrDrivesOnePulse : Prop :=
  ∀ (s : State) (sda scl : Byte),
    (s.fsm = .cbPulseLow → exec (.clr sda scl) s = .next { s with
      pinMode := s.pinMode.set s.sclPin.toNat .output s.sclPin.isLt
      history := s.history ++ [.mode s.sclPin .output], fsm := .cbHoldLow }) ∧
    (s.fsm = .cbHoldLow → exec (.clr sda scl) s = .next { s with
      history := s.history ++ [.wait s.params.tPulseLow], fsm := .cbPulseRel }) ∧
    (s.fsm = .cbPulseRel → exec (.clr sda scl) s = .next { s with
      pinMode := s.pinMode.set s.sclPin.toNat .inputPullup s.sclPin.isLt
      history := s.history ++ [.mode s.sclPin .inputPullup], fsm := .cbHoldHigh }) ∧
    (s.fsm = .cbHoldHigh → exec (.clr sda scl) s = .next { s with
      history := s.history ++ [.wait s.params.tPulseHigh], fsm := .cbStrChk }) ∧
    5000 < s.params.tPulseLow ∧ 5000 < s.params.tPulseHigh

/-- R199 to R203: the stretch wait and the re-check of SDA; `T_POLL` is 100 ms in the machine of
`State.reset`, and `StepKeepsParameters` says that it stays so. -/
def Obligations.ClrWaitsForScl : Prop :=
  ∀ (s : State) (sda scl : Byte),
    (s.fsm = .cbStrChk → exec (.clr sda scl) s = .next { (s.sample s.sclPin).2 with
      sclLow := decide ((s.sample s.sclPin).1 = .low), polls := s.params.nStretchPolls,
      fsm := .cbStrTest }) ∧
    (s.fsm = .cbStrTest → exec (.clr sda scl) s = .next (
      if s.sclLow = false then { s with fsm := .cbRecheckSda }
      else if s.polls = 0 then { s with st := 2, fsm := .cbFinSda }
      else { s with polls := s.polls - 1, fsm := .cbStrWait })) ∧
    (s.fsm = .cbStrWait → exec (.clr sda scl) s = .next { s with
      history := s.history ++ [.wait s.params.tPoll], fsm := .cbStrSample }) ∧
    (s.fsm = .cbStrSample → exec (.clr sda scl) s = .next { (s.sample s.sclPin).2 with
      sclLow := decide ((s.sample s.sclPin).1 = .low), fsm := .cbStrTest }) ∧
    (s.fsm = .cbRecheckSda → exec (.clr sda scl) s = .next { (s.sample s.sdaPin).2 with
      sdaLow := decide ((s.sample s.sdaPin).1 = .low), fsm := .cbLoop }) ∧
    State.reset.params.tPoll = 100 * 1000000 ∧
    ∀ p, (s.sample p).2.history = s.history ++ [.sample p (s.sample p).1]

/-- R204 to R207: the bus clear. -/
def Obligations.ClrClearsTheBus : Prop :=
  ∀ (s : State) (sda scl : Byte),
    (s.fsm = .cbStart → exec (.clr sda scl) s = .next { s with
      pinMode := s.pinMode.set s.sdaPin.toNat .output s.sdaPin.isLt
      history := s.history ++ [.mode s.sdaPin .output], fsm := .cbStartHold }) ∧
    (s.fsm = .cbStartHold → exec (.clr sda scl) s = .next { s with
      history := s.history ++ [.wait s.params.tSdaHold], fsm := .cbStop }) ∧
    (s.fsm = .cbStop → exec (.clr sda scl) s = .next { s with
      pinMode := s.pinMode.set s.sdaPin.toNat .inputPullup s.sdaPin.isLt
      history := s.history ++ [.mode s.sdaPin .inputPullup], fsm := .cbStopHold }) ∧
    (s.fsm = .cbStopHold → exec (.clr sda scl) s = .next { s with
      history := s.history ++ [.wait s.params.tSdaHold], st := 0, fsm := .cbFinSda }) ∧
    5000 < s.params.tSdaHold

/-- R208, R209: the two last steps of every exit; the status is the result. -/
def Obligations.ClrReleasesAndReports : Prop :=
  ∀ (s : State) (sda scl : Byte),
    (s.fsm = .cbFinSda → exec (.clr sda scl) s = .next { s with
      pinMode := s.pinMode.set s.sdaPin.toNat .input s.sdaPin.isLt
      history := s.history ++ [.mode s.sdaPin .input], fsm := .cbFinScl }) ∧
    (s.fsm = .cbFinScl → exec (.clr sda scl) s = .next { s with
      pinMode := s.pinMode.set s.sclPin.toNat .input s.sclPin.isLt
      result := s.st.setWidth 32, resultValid := true
      history := s.history ++ [.mode s.sclPin .input, .done .clr (some (s.st.setWidth 32))],
      fsm := .idle })

/-! ## Whole recoveries -/

/-- R190, R185: with SCL LOW at its first sample CLR reports status 1 in 7 steps after accept; the history
names every primitive, so no pulse is driven. -/
def Obligations.ClrStuckClockReportsOne : Prop :=
  ∀ (s : State) (sda scl : Byte) (rest : List Level), s.fsm = .idle →
    (Instr.clr sda scl).wellFormed s.params = true →
    s.schedule = [.host (.issue (encode (.clr sda scl)))] → s.levelAnswers = .low :: rest →
    ∃ t, Host.Core.run Sys2Proof.core 8 s = .next t ∧ t.fsm = .idle ∧ t.result = 1 ∧
      t.resultValid = true ∧ t.xportReady = false ∧
      t.devaddr = s.devaddr ∧ t.cfgValid = s.cfgValid ∧ t.faultCause = s.faultCause ∧
      t.modeOf sda = .input ∧ t.modeOf scl = .input ∧
      (∀ p, p ≠ sda → p ≠ scl → t.modeOf p = s.modeOf p) ∧
      t.history = s.history ++ (if s.params.hasBusController then [.ctrlOff] else []) ++
        [.mode sda .inputPullup, .mode scl .inputPullup, .wait s.params.tSettle, .sample scl .low,
         .mode sda .input, .mode scl .input, .done .clr (some 1)]

/-- R211: the status and the number of pulses are the function of the Environment's answers that the rule
gives, whatever the state CLR starts in. The rule's 20 pulses and samples 0..20 are `N_CLOCK_PULSES` and
`N_STRETCH_POLLS` (R9); the function is the rule's for every value of the two. -/
def Obligations.ClrOutcomeFollowsTheSamples : Prop :=
  ∀ (s : State) (i : Instr) (st : BitVec 2) (pulses : Nat),
    s.fsm = .cbInit → s.schedule = [] → decode s.cmd = .ok i → i.op = .clr → s.sdaPin ≠ s.sclPin →
    clrOutcome s.params s.levelAnswers = some (st, pulses) →
    ∃ (k : Nat) (t : State) (es : List Event), Host.Core.run Sys2Proof.core k s = .next t ∧
      t.fsm = .idle ∧ t.result = st.setWidth 32 ∧ t.resultValid = true ∧
      t.history = s.history ++ es ∧ es.getLast? = some (.done .clr (some t.result)) ∧
      es.countP (Event.drives s.sclPin) = pulses ∧
      es.countP (Event.drives s.sdaPin) = (if st = 0 then 1 else 0) ∧
      t.modeOf s.sdaPin = .input ∧ t.modeOf s.sclPin = .input

/-- R218, R212, R193: undisturbed, CLR ends in a bounded number of steps after accept, whatever the
Environment answers, with a status 0..3, at most `N_CLOCK_PULSES` pulses and both pins `INPUT`; at the
values R9 gives, the bounds are 1373 steps and 20 pulses. -/
def Obligations.ClrTerminates : Prop :=
  ∀ (s : State) (i : Instr), s.fsm = .cbInit → s.schedule = [] → decode s.cmd = .ok i → i.op = .clr →
    s.sdaPin ≠ s.sclPin →
    ∃ (k : Nat) (t : State) (es : List Event), k ≤ s.params.maxClrSteps ∧
      Host.Core.run Sys2Proof.core k s = .next t ∧
      t.fsm = .idle ∧ t.resultValid = true ∧ t.result.toNat ≤ 3 ∧ t.xportReady = false ∧
      t.history = s.history ++ es ∧ es.countP (Event.drives s.sclPin) ≤ s.params.nClockPulses.toNat ∧
      (s.params.HasStatedValues → k ≤ 1373 ∧ es.countP (Event.drives s.sclPin) ≤ 20) ∧
      t.modeOf s.sdaPin = .input ∧ t.modeOf s.sclPin = .input

/-! ## Frames and whole-machine rules -/

/-- R146, R147, R150, R151: what a step of a register command leaves unchanged. CFG writes no result and
nothing of a read; WR writes no register but `fsm` and the latched word; RDU and RDS write only what a read
writes. -/
def Obligations.RegisterCommandsFrame : Prop :=
  ∀ (i : Instr) (s t : State), i.op ≠ .clr → exec i s = .next t →
    (t.params = s.params ∧ t.xportReady = s.xportReady ∧ t.retries = s.retries ∧ t.polls = s.polls ∧
      t.sdaLow = s.sdaLow ∧ t.sclLow = s.sclLow ∧ t.st = s.st ∧ t.sdaPin = s.sdaPin ∧
      t.sclPin = s.sclPin ∧ t.pinMode = s.pinMode ∧ t.schedule = s.schedule ∧
      t.levelAnswers = s.levelAnswers ∧ t.reads = s.reads ∧
      (s.fsm ≠ .idle → t.cmd = s.cmd ∧ t.faultCause = s.faultCause)) ∧
    (i.op ≠ .cfg → t.devaddr = s.devaddr ∧ t.cfgValid = s.cfgValid) ∧
    (i.op = .cfg ∨ i.op = .wr → t.result = s.result ∧ t.resultValid = s.resultValid ∧ t.acc = s.acc ∧
      t.buf = s.buf ∧ t.idx = s.idx ∧ t.countAnswers = s.countAnswers ∧
      t.byteAnswers = s.byteAnswers ∧ t.freeDraws = s.freeDraws)

/-- R183, R219: what a step of CLR leaves unchanged; it touches no pin but the two it named. -/
def Obligations.ClrFrame : Prop :=
  ∀ (sda scl : Byte) (s t : State), exec (.clr sda scl) s = .next t →
    t.params = s.params ∧ t.devaddr = s.devaddr ∧ t.cfgValid = s.cfgValid ∧ t.acc = s.acc ∧
    t.buf = s.buf ∧ t.idx = s.idx ∧ t.schedule = s.schedule ∧ t.countAnswers = s.countAnswers ∧
    t.byteAnswers = s.byteAnswers ∧ t.reads = s.reads ∧
    (∀ p, p ≠ s.sdaPin → p ≠ s.sclPin → t.modeOf p = s.modeOf p) ∧
    (s.fsm = .idle → t.pinMode = s.pinMode ∧ t.xportReady = s.xportReady ∧ t.result = s.result ∧
      t.resultValid = s.resultValid) ∧
    (s.fsm ≠ .idle → t.cmd = s.cmd ∧ t.faultCause = s.faultCause ∧ t.sdaPin = s.sdaPin ∧
      t.sclPin = s.sclPin)

/-- R35: a step that changes `devaddr` or `cfg_valid` is the accept step of a CFG or a reset. -/
def Obligations.OnlyCfgChangesTheAddress : Prop :=
  ∀ s t : State, step s = .next t → t.devaddr ≠ s.devaddr ∨ t.cfgValid ≠ s.cfgValid →
    ∃ rest, (∃ w addr, decode w = .ok (.cfg addr) ∧ s.fsm = .idle ∧
        (s.schedule = .host (.issue w) :: rest ∨ s.schedule = .hostWhenReady (.issue w) :: rest)) ∨
      s.schedule = .host .reset :: rest ∨ s.schedule = .hostWhenReady .reset :: rest

/-- R14, R2, R221: a command's step only appends to the history, with at most one port primitive; CLR uses
no Transport primitive and the register commands use no Pin I/O primitive. -/
def Obligations.OnePrimitivePerStep : Prop :=
  ∀ (i : Instr) (s t : State), exec i s = .next t →
    ∃ es : List Event, t.history = s.history ++ es ∧
      es.countP (fun e => e.isTransport || e.isPin) ≤ 1 ∧
      (i.op = .clr → ∀ e ∈ es, e.isTransport = false) ∧
      (i.op ≠ .clr → ∀ e ∈ es, e.isPin = false)

/-! ## Faults, reset and the Host -/

/-- R244, R241: a word issued while a command runs, whatever the word, stops it with CONCURRENT_USE; a pin
that a CLR drove is released, SDA first; the rest of the state stays. -/
def Obligations.ConcurrentUseFaults : Prop :=
  ∀ (s : State) (w : Word) (rest : List Turn), s.fsm ≠ .idle → s.fsm ≠ .fault →
    s.schedule = .host (.issue w) :: rest →
    ∃ t, step s = .next t ∧
      t = { s with
        schedule := rest, faultCause := .concurrentUse, fsm := .fault,
        pinMode := t.pinMode, history := t.history } ∧
      (∀ p, t.modeOf p = if s.fsm.family = .clear ∧ (p = s.sdaPin ∨ p = s.sclPin) ∧
        s.modeOf p = .output then .input else s.modeOf p) ∧
      t.history = s.history ++
        (if s.fsm.family = .clear then
          (if s.modeOf s.sdaPin = .output then [.mode s.sdaPin .input] else []) ++
          (if s.sclPin ≠ s.sdaPin ∧ s.modeOf s.sclPin = .output then [.mode s.sclPin .input] else [])
        else []) ++ [.fault .concurrentUse]

/-- R242: in `FAULT` an issued word, whatever it is, has no effect and is not recorded. -/
def Obligations.FaultIgnoresCommands : Prop :=
  ∀ (s : State) (w : Word) (rest : List Turn), s.fsm = .fault →
    (s.schedule = .host (.issue w) :: rest ∨ s.schedule = .hostWhenReady (.issue w) :: rest) →
    step s = .next (s.withSchedule rest)

/-- R242, R258: a step that leaves `FAULT` is a reset; any other keeps the cause, the registers, the pins
and the history. -/
def Obligations.OnlyResetLeavesFault : Prop :=
  ∀ s t : State, s.fsm = .fault → step s = .next t →
    (∃ rest, s.schedule = .host .reset :: rest ∨ s.schedule = .hostWhenReady .reset :: rest) ∨
    t = { s with schedule := t.schedule, reads := t.reads }

/-- R280, R281: reset, in any state, takes effect before any other step and sets what the spec gives a reset
value. (The elements R31 calls unspecified are not spoken of.) That the history is emptied, one of the two
ways R280 allows, and that the parameters and the rest of the schedule are kept are the model's choice (log
entry 9, DESIGN CHOICE). -/
def Obligations.ResetFromAnyState : Prop :=
  ∀ (s : State) (rest : List Turn), s.schedule = .host .reset :: rest →
    ∃ t, step s = .next t ∧ t.fsm = .idle ∧ t.cfgValid = false ∧ t.resultValid = false ∧
      t.xportReady = false ∧ t.faultCause = .noFault ∧ (∀ p, t.modeOf p = .input) ∧ t.history = [] ∧
      t.params = s.params ∧ t.schedule = rest

/-- R31, R282: the state right after reset, in the elements the spec gives a value, and what the Host sees
of it: STATUS is 0, and RESULT and DEVADDR are refused. -/
def Obligations.ResetStateAsSpecified : Prop :=
  State.reset.fsm = .idle ∧ State.reset.cfgValid = false ∧ State.reset.xportReady = false ∧
  State.reset.resultValid = false ∧ State.reset.faultCause = .noFault ∧
  (∀ p, State.reset.modeOf p = .input) ∧ State.reset.history = [] ∧
  State.reset.statusWord = 0x00000000#32 ∧
  State.reset.hostRegister 1 = none ∧ State.reset.hostRegister 2 = none

/-- R53, R240: the fields of STATUS, bit by bit, with the code of each fault cause. -/
def Obligations.StatusFields : Prop :=
  ∀ s : State,
    s.statusWord.getLsbD 0 = decide (s.fsm ≠ .idle ∧ s.fsm ≠ .fault) ∧
    s.statusWord.getLsbD 1 = decide (s.fsm = .fault) ∧
    s.statusWord.getLsbD 2 = s.cfgValid ∧
    s.statusWord.getLsbD 3 = s.resultValid ∧
    s.statusWord.getLsbD 4 = s.xportReady ∧
    s.statusWord.extractLsb' 5 3 = 0 ∧
    (s.statusWord.extractLsb' 8 4, s.faultCause) ∈
      [(0#4, FaultCause.noFault), (1#4, .illegalCommand), (2#4, .numBytesRange), (3#4, .addrRange),
       (4#4, .pinRange), (5#4, .pinConflict), (6#4, .notConfigured), (7#4, .transportDisabled),
       (8#4, .concurrentUse)] ∧
    s.statusWord.extractLsb' 12 20 = 0

/-- R52 to R56: what a Host read answers, and that it is refused while `BUSY = 1`, for any other register
number, for RESULT before a result and for DEVADDR before a CFG. -/
def Obligations.HostReadsRegisters : Prop :=
  ∀ (s : State) (n : Nat) (rest : List Turn), s.schedule = .host (.read n) :: rest →
    let answered := fun (v : Word) =>
      step s = .next { s with schedule := rest, reads := s.reads ++ [(n, v)] }
    let quiet := s.fsm = .idle ∨ s.fsm = .fault
    (quiet → n = 0 → answered s.statusWord) ∧
    (quiet → n = 1 → s.resultValid = true → answered s.result) ∧
    (quiet → n = 2 → s.cfgValid = true → answered (s.devaddr.setWidth 32)) ∧
    (¬ quiet ∨ 2 < n ∨ (n = 1 ∧ s.resultValid = false) ∨ (n = 2 ∧ s.cfgValid = false) →
      step s = .refused (.registerRead n))

/-- R57, R44: `InitTransport` makes the transport ready in `IDLE`, and is refused while a command runs and
in `FAULT`. -/
def Obligations.InitTransportWhenIdle : Prop :=
  ∀ (s : State) (rest : List Turn), s.schedule = .host .initTransport :: rest →
    (s.fsm = .idle → step s = .next { s with schedule := rest, xportReady := true }) ∧
    (s.fsm ≠ .idle → step s = .refused .initTransport)

/-- R9: the OPEN parameters are within their bounds, and the machine of `State.reset` has the values that R9
gives the three others. -/
def Obligations.ParametersWithinBounds : Prop :=
  (∀ p : Params, 1 ≤ p.pinCount ∧ p.pinCount ≤ 256 ∧ 5000 < p.tPulseLow ∧ 5000 < p.tPulseHigh ∧
    5000 < p.tSdaHold) ∧ State.reset.params.HasStatedValues

/-! ## Invariants -/

/-- R32, R34, R111, R142: every step keeps that the running command is the latched word's and that what its
accept step checked still holds. -/
def Obligations.StepKeepsCoherence : Prop :=
  ∀ s t : State, s.Coherent → step s = .next t → t.Coherent

/-- R14, R257: from a coherent state no step stops with a fault of the model; a fault of the block is a
state. -/
def Obligations.CoherentStepNeverStops : Prop :=
  ∀ s : State, s.Coherent →
    (∃ t, step s = .next t) ∨ (∃ n, step s = .refused (.registerRead n)) ∨
      step s = .refused .initTransport

/-- R214, R215, R212: every step keeps that at most one line is driven, SCL only between CB_PULSE_LOW and
CB_PULSE_REL and SDA only between CB_START and CB_STOP, that no other pin is driven, and that both pins are
`INPUT_PULLUP` wherever a line is sampled. -/
def Obligations.StepKeepsLinesSafe : Prop :=
  ∀ s t : State, s.LinesSafe → step s = .next t → t.LinesSafe

/-- R212, R241: where the lines are safe and no CLR runs, every pin is released; and where a line is about
to be sampled, both of CLR's pins are `INPUT_PULLUP`. -/
def Obligations.SafeLinesAreReleased : Prop :=
  ∀ s : State, s.LinesSafe →
    (s.fsm.family ≠ .clear → s.AllReleased) ∧
    (s.fsm = .cbChkScl ∨ s.fsm = .cbChkSda ∨ s.fsm = .cbStrChk ∨ s.fsm = .cbStrSample ∨
      s.fsm = .cbRecheckSda →
      s.modeOf s.sdaPin = .inputPullup ∧ s.modeOf s.sclPin = .inputPullup)

/-- R46, R193, R199: every step keeps the loaded counters at most at the counts they are loaded with, which
is at most 20 where the parameters have the values R9 gives. -/
def Obligations.StepKeepsCountersBounded : Prop :=
  (∀ s t : State, s.CountersBounded → step s = .next t → t.CountersBounded) ∧
    ∀ s : State, s.CountersBounded → s.params.HasStatedValues →
      (retriesLoaded s.fsm = true → s.retries.toNat ≤ 20) ∧
      (pollsLoaded s.fsm = true → s.polls.toNat ≤ 20)

/-- R51, R242: every step keeps that `fault_cause` names a fault exactly in `FAULT`. -/
def Obligations.StepKeepsCauseOfFault : Prop :=
  ∀ s t : State, s.CauseFits → step s = .next t → t.CauseFits

/-- The four invariants hold after reset. -/
def Obligations.ResetMeetsInvariants : Prop :=
  State.reset.Coherent ∧ State.reset.LinesSafe ∧ State.reset.CountersBounded ∧
    State.reset.CauseFits

/-- R9: the parameters are arguments of the model: no step of any agent changes one. -/
def Obligations.StepKeepsParameters : Prop :=
  ∀ s t : State, step s = .next t → t.params = s.params
end

