-- ==== Sys2Proof/Laws/Encoding.lean ====
section
/-! SUPPORT. The fields of a packed word, and the opcode map both ways. -/

namespace Sys2Proof

section PackWord
variable (op : BitVec 4) (nb : BitVec 3) (reg b2 b3 : Byte)

@[simp] theorem opField_packWord : opField (packWord op nb reg b2 b3) = op := by
  unfold opField packWord
  ext k hk
  simp only [BitVec.getElem_extractLsb', BitVec.getLsbD_append]
  grind

@[simp] theorem nbField_packWord : nbField (packWord op nb reg b2 b3) = nb := by
  unfold nbField packWord
  ext k hk
  simp only [BitVec.getElem_extractLsb', BitVec.getLsbD_append]
  grind

@[simp] theorem rsvField_packWord : rsvField (packWord op nb reg b2 b3) = 0 := by
  unfold rsvField packWord
  ext k hk
  simp only [BitVec.getElem_extractLsb', BitVec.getLsbD_append]
  grind

@[simp] theorem regField_packWord : regField (packWord op nb reg b2 b3) = reg := by
  unfold regField packWord
  ext k hk
  simp only [BitVec.getElem_extractLsb', BitVec.getLsbD_append]
  grind

@[simp] theorem b2Field_packWord : b2Field (packWord op nb reg b2 b3) = b2 := by
  unfold b2Field packWord
  ext k hk
  simp only [BitVec.getElem_extractLsb', BitVec.getLsbD_append]
  grind

@[simp] theorem b3Field_packWord : b3Field (packWord op nb reg b2 b3) = b3 := by
  unfold b3Field packWord
  ext k hk
  simp only [BitVec.getElem_extractLsb', BitVec.getLsbD_append]
  grind

end PackWord

@[simp] theorem Op.ofCode_code (op : Op) : Op.ofCode op.code = some op := by
  cases op <;> decide

theorem Op.ofCode_eq_some (code : BitVec 4) (op : Op) :
    Op.ofCode code = some op ↔ code = op.code := by
  revert code
  cases op <;> decide

/-- A word is its six fields (R112). -/
theorem word_eq_fields (w : Word) :
    w = b3Field w ++ b2Field w ++ regField w ++ rsvField w ++ nbField w ++ opField w := by
  unfold b3Field b2Field regField rsvField nbField opField
  apply BitVec.eq_of_getLsbD_eq
  intro k hk
  simp only [BitVec.getLsbD_append, BitVec.getLsbD_extractLsb']
  grind

/-- A word whose reserved bit is clear is packed from its other five fields (R112). -/
theorem eq_packWord_of_rsv (w : Word) (h : rsvField w = 0) :
    w = packWord (opField w) (nbField w) (regField w) (b2Field w) (b3Field w) := by
  conv_lhs => rw [word_eq_fields w, h]
  rfl

end Sys2Proof
end

