-- ==== Sys2Proof/Laws/State.lean ====
section
/-! SUPPORT. One lemma per field per update of the state, each true by rfl. -/

namespace Sys2Proof.Machine

@[simp] theorem State.goto_params (s : State) (f : Fsm) : (s.goto f).params = s.params := rfl
@[simp] theorem State.goto_fsm (s : State) (f : Fsm) : (s.goto f).fsm = f := rfl
@[simp] theorem State.goto_cmd (s : State) (f : Fsm) : (s.goto f).cmd = s.cmd := rfl
@[simp] theorem State.goto_devaddr (s : State) (f : Fsm) : (s.goto f).devaddr = s.devaddr := rfl
@[simp] theorem State.goto_cfgValid (s : State) (f : Fsm) : (s.goto f).cfgValid = s.cfgValid := rfl
@[simp] theorem State.goto_xportReady (s : State) (f : Fsm) : (s.goto f).xportReady = s.xportReady := rfl
@[simp] theorem State.goto_result (s : State) (f : Fsm) : (s.goto f).result = s.result := rfl
@[simp] theorem State.goto_resultValid (s : State) (f : Fsm) : (s.goto f).resultValid = s.resultValid := rfl
@[simp] theorem State.goto_faultCause (s : State) (f : Fsm) : (s.goto f).faultCause = s.faultCause := rfl
@[simp] theorem State.goto_acc (s : State) (f : Fsm) : (s.goto f).acc = s.acc := rfl
@[simp] theorem State.goto_buf (s : State) (f : Fsm) : (s.goto f).buf = s.buf := rfl
@[simp] theorem State.goto_idx (s : State) (f : Fsm) : (s.goto f).idx = s.idx := rfl
@[simp] theorem State.goto_retries (s : State) (f : Fsm) : (s.goto f).retries = s.retries := rfl
@[simp] theorem State.goto_polls (s : State) (f : Fsm) : (s.goto f).polls = s.polls := rfl
@[simp] theorem State.goto_sdaLow (s : State) (f : Fsm) : (s.goto f).sdaLow = s.sdaLow := rfl
@[simp] theorem State.goto_sclLow (s : State) (f : Fsm) : (s.goto f).sclLow = s.sclLow := rfl
@[simp] theorem State.goto_st (s : State) (f : Fsm) : (s.goto f).st = s.st := rfl
@[simp] theorem State.goto_sdaPin (s : State) (f : Fsm) : (s.goto f).sdaPin = s.sdaPin := rfl
@[simp] theorem State.goto_sclPin (s : State) (f : Fsm) : (s.goto f).sclPin = s.sclPin := rfl
@[simp] theorem State.goto_pinMode (s : State) (f : Fsm) : (s.goto f).pinMode = s.pinMode := rfl
@[simp] theorem State.goto_history (s : State) (f : Fsm) : (s.goto f).history = s.history := rfl
@[simp] theorem State.goto_schedule (s : State) (f : Fsm) : (s.goto f).schedule = s.schedule := rfl
@[simp] theorem State.goto_countAnswers (s : State) (f : Fsm) : (s.goto f).countAnswers = s.countAnswers := rfl
@[simp] theorem State.goto_byteAnswers (s : State) (f : Fsm) : (s.goto f).byteAnswers = s.byteAnswers := rfl
@[simp] theorem State.goto_levelAnswers (s : State) (f : Fsm) : (s.goto f).levelAnswers = s.levelAnswers := rfl
@[simp] theorem State.goto_freeDraws (s : State) (f : Fsm) : (s.goto f).freeDraws = s.freeDraws := rfl
@[simp] theorem State.goto_reads (s : State) (f : Fsm) : (s.goto f).reads = s.reads := rfl

@[simp] theorem State.emit_params (s : State) (e : Event) : (s.emit e).params = s.params := rfl
@[simp] theorem State.emit_fsm (s : State) (e : Event) : (s.emit e).fsm = s.fsm := rfl
@[simp] theorem State.emit_cmd (s : State) (e : Event) : (s.emit e).cmd = s.cmd := rfl
@[simp] theorem State.emit_devaddr (s : State) (e : Event) : (s.emit e).devaddr = s.devaddr := rfl
@[simp] theorem State.emit_cfgValid (s : State) (e : Event) : (s.emit e).cfgValid = s.cfgValid := rfl
@[simp] theorem State.emit_xportReady (s : State) (e : Event) : (s.emit e).xportReady = s.xportReady := rfl
@[simp] theorem State.emit_result (s : State) (e : Event) : (s.emit e).result = s.result := rfl
@[simp] theorem State.emit_resultValid (s : State) (e : Event) : (s.emit e).resultValid = s.resultValid := rfl
@[simp] theorem State.emit_faultCause (s : State) (e : Event) : (s.emit e).faultCause = s.faultCause := rfl
@[simp] theorem State.emit_acc (s : State) (e : Event) : (s.emit e).acc = s.acc := rfl
@[simp] theorem State.emit_buf (s : State) (e : Event) : (s.emit e).buf = s.buf := rfl
@[simp] theorem State.emit_idx (s : State) (e : Event) : (s.emit e).idx = s.idx := rfl
@[simp] theorem State.emit_retries (s : State) (e : Event) : (s.emit e).retries = s.retries := rfl
@[simp] theorem State.emit_polls (s : State) (e : Event) : (s.emit e).polls = s.polls := rfl
@[simp] theorem State.emit_sdaLow (s : State) (e : Event) : (s.emit e).sdaLow = s.sdaLow := rfl
@[simp] theorem State.emit_sclLow (s : State) (e : Event) : (s.emit e).sclLow = s.sclLow := rfl
@[simp] theorem State.emit_st (s : State) (e : Event) : (s.emit e).st = s.st := rfl
@[simp] theorem State.emit_sdaPin (s : State) (e : Event) : (s.emit e).sdaPin = s.sdaPin := rfl
@[simp] theorem State.emit_sclPin (s : State) (e : Event) : (s.emit e).sclPin = s.sclPin := rfl
@[simp] theorem State.emit_pinMode (s : State) (e : Event) : (s.emit e).pinMode = s.pinMode := rfl
@[simp] theorem State.emit_history (s : State) (e : Event) : (s.emit e).history = s.history ++ [e] := rfl
@[simp] theorem State.emit_schedule (s : State) (e : Event) : (s.emit e).schedule = s.schedule := rfl
@[simp] theorem State.emit_countAnswers (s : State) (e : Event) : (s.emit e).countAnswers = s.countAnswers := rfl
@[simp] theorem State.emit_byteAnswers (s : State) (e : Event) : (s.emit e).byteAnswers = s.byteAnswers := rfl
@[simp] theorem State.emit_levelAnswers (s : State) (e : Event) : (s.emit e).levelAnswers = s.levelAnswers := rfl
@[simp] theorem State.emit_freeDraws (s : State) (e : Event) : (s.emit e).freeDraws = s.freeDraws := rfl
@[simp] theorem State.emit_reads (s : State) (e : Event) : (s.emit e).reads = s.reads := rfl

@[simp] theorem State.setMode_params (s : State) (p : Byte) (m : PinMode) : (s.setMode p m).params = s.params := rfl
@[simp] theorem State.setMode_fsm (s : State) (p : Byte) (m : PinMode) : (s.setMode p m).fsm = s.fsm := rfl
@[simp] theorem State.setMode_cmd (s : State) (p : Byte) (m : PinMode) : (s.setMode p m).cmd = s.cmd := rfl
@[simp] theorem State.setMode_devaddr (s : State) (p : Byte) (m : PinMode) : (s.setMode p m).devaddr = s.devaddr := rfl
@[simp] theorem State.setMode_cfgValid (s : State) (p : Byte) (m : PinMode) : (s.setMode p m).cfgValid = s.cfgValid := rfl
@[simp] theorem State.setMode_xportReady (s : State) (p : Byte) (m : PinMode) : (s.setMode p m).xportReady = s.xportReady := rfl
@[simp] theorem State.setMode_result (s : State) (p : Byte) (m : PinMode) : (s.setMode p m).result = s.result := rfl
@[simp] theorem State.setMode_resultValid (s : State) (p : Byte) (m : PinMode) : (s.setMode p m).resultValid = s.resultValid := rfl
@[simp] theorem State.setMode_faultCause (s : State) (p : Byte) (m : PinMode) : (s.setMode p m).faultCause = s.faultCause := rfl
@[simp] theorem State.setMode_acc (s : State) (p : Byte) (m : PinMode) : (s.setMode p m).acc = s.acc := rfl
@[simp] theorem State.setMode_buf (s : State) (p : Byte) (m : PinMode) : (s.setMode p m).buf = s.buf := rfl
@[simp] theorem State.setMode_idx (s : State) (p : Byte) (m : PinMode) : (s.setMode p m).idx = s.idx := rfl
@[simp] theorem State.setMode_retries (s : State) (p : Byte) (m : PinMode) : (s.setMode p m).retries = s.retries := rfl
@[simp] theorem State.setMode_polls (s : State) (p : Byte) (m : PinMode) : (s.setMode p m).polls = s.polls := rfl
@[simp] theorem State.setMode_sdaLow (s : State) (p : Byte) (m : PinMode) : (s.setMode p m).sdaLow = s.sdaLow := rfl
@[simp] theorem State.setMode_sclLow (s : State) (p : Byte) (m : PinMode) : (s.setMode p m).sclLow = s.sclLow := rfl
@[simp] theorem State.setMode_st (s : State) (p : Byte) (m : PinMode) : (s.setMode p m).st = s.st := rfl
@[simp] theorem State.setMode_sdaPin (s : State) (p : Byte) (m : PinMode) : (s.setMode p m).sdaPin = s.sdaPin := rfl
@[simp] theorem State.setMode_sclPin (s : State) (p : Byte) (m : PinMode) : (s.setMode p m).sclPin = s.sclPin := rfl
@[simp] theorem State.setMode_pinMode (s : State) (p : Byte) (m : PinMode) : (s.setMode p m).pinMode = s.pinMode.set p.toNat m p.isLt := rfl
@[simp] theorem State.setMode_history (s : State) (p : Byte) (m : PinMode) : (s.setMode p m).history = s.history ++ [.mode p m] := rfl
@[simp] theorem State.setMode_schedule (s : State) (p : Byte) (m : PinMode) : (s.setMode p m).schedule = s.schedule := rfl
@[simp] theorem State.setMode_countAnswers (s : State) (p : Byte) (m : PinMode) : (s.setMode p m).countAnswers = s.countAnswers := rfl
@[simp] theorem State.setMode_byteAnswers (s : State) (p : Byte) (m : PinMode) : (s.setMode p m).byteAnswers = s.byteAnswers := rfl
@[simp] theorem State.setMode_levelAnswers (s : State) (p : Byte) (m : PinMode) : (s.setMode p m).levelAnswers = s.levelAnswers := rfl
@[simp] theorem State.setMode_freeDraws (s : State) (p : Byte) (m : PinMode) : (s.setMode p m).freeDraws = s.freeDraws := rfl
@[simp] theorem State.setMode_reads (s : State) (p : Byte) (m : PinMode) : (s.setMode p m).reads = s.reads := rfl

@[simp] theorem State.withSchedule_params (s : State) (r : List Turn) : (s.withSchedule r).params = s.params := rfl
@[simp] theorem State.withSchedule_fsm (s : State) (r : List Turn) : (s.withSchedule r).fsm = s.fsm := rfl
@[simp] theorem State.withSchedule_cmd (s : State) (r : List Turn) : (s.withSchedule r).cmd = s.cmd := rfl
@[simp] theorem State.withSchedule_devaddr (s : State) (r : List Turn) : (s.withSchedule r).devaddr = s.devaddr := rfl
@[simp] theorem State.withSchedule_cfgValid (s : State) (r : List Turn) : (s.withSchedule r).cfgValid = s.cfgValid := rfl
@[simp] theorem State.withSchedule_xportReady (s : State) (r : List Turn) : (s.withSchedule r).xportReady = s.xportReady := rfl
@[simp] theorem State.withSchedule_result (s : State) (r : List Turn) : (s.withSchedule r).result = s.result := rfl
@[simp] theorem State.withSchedule_resultValid (s : State) (r : List Turn) : (s.withSchedule r).resultValid = s.resultValid := rfl
@[simp] theorem State.withSchedule_faultCause (s : State) (r : List Turn) : (s.withSchedule r).faultCause = s.faultCause := rfl
@[simp] theorem State.withSchedule_acc (s : State) (r : List Turn) : (s.withSchedule r).acc = s.acc := rfl
@[simp] theorem State.withSchedule_buf (s : State) (r : List Turn) : (s.withSchedule r).buf = s.buf := rfl
@[simp] theorem State.withSchedule_idx (s : State) (r : List Turn) : (s.withSchedule r).idx = s.idx := rfl
@[simp] theorem State.withSchedule_retries (s : State) (r : List Turn) : (s.withSchedule r).retries = s.retries := rfl
@[simp] theorem State.withSchedule_polls (s : State) (r : List Turn) : (s.withSchedule r).polls = s.polls := rfl
@[simp] theorem State.withSchedule_sdaLow (s : State) (r : List Turn) : (s.withSchedule r).sdaLow = s.sdaLow := rfl
@[simp] theorem State.withSchedule_sclLow (s : State) (r : List Turn) : (s.withSchedule r).sclLow = s.sclLow := rfl
@[simp] theorem State.withSchedule_st (s : State) (r : List Turn) : (s.withSchedule r).st = s.st := rfl
@[simp] theorem State.withSchedule_sdaPin (s : State) (r : List Turn) : (s.withSchedule r).sdaPin = s.sdaPin := rfl
@[simp] theorem State.withSchedule_sclPin (s : State) (r : List Turn) : (s.withSchedule r).sclPin = s.sclPin := rfl
@[simp] theorem State.withSchedule_pinMode (s : State) (r : List Turn) : (s.withSchedule r).pinMode = s.pinMode := rfl
@[simp] theorem State.withSchedule_history (s : State) (r : List Turn) : (s.withSchedule r).history = s.history := rfl
@[simp] theorem State.withSchedule_schedule (s : State) (r : List Turn) : (s.withSchedule r).schedule = r := rfl
@[simp] theorem State.withSchedule_countAnswers (s : State) (r : List Turn) : (s.withSchedule r).countAnswers = s.countAnswers := rfl
@[simp] theorem State.withSchedule_byteAnswers (s : State) (r : List Turn) : (s.withSchedule r).byteAnswers = s.byteAnswers := rfl
@[simp] theorem State.withSchedule_levelAnswers (s : State) (r : List Turn) : (s.withSchedule r).levelAnswers = s.levelAnswers := rfl
@[simp] theorem State.withSchedule_freeDraws (s : State) (r : List Turn) : (s.withSchedule r).freeDraws = s.freeDraws := rfl
@[simp] theorem State.withSchedule_reads (s : State) (r : List Turn) : (s.withSchedule r).reads = s.reads := rfl

@[simp] theorem State.latch_params (s : State) (w : Word) : (s.latch w).params = s.params := rfl
@[simp] theorem State.latch_fsm (s : State) (w : Word) : (s.latch w).fsm = s.fsm := rfl
@[simp] theorem State.latch_cmd (s : State) (w : Word) : (s.latch w).cmd = w := rfl
@[simp] theorem State.latch_devaddr (s : State) (w : Word) : (s.latch w).devaddr = s.devaddr := rfl
@[simp] theorem State.latch_cfgValid (s : State) (w : Word) : (s.latch w).cfgValid = s.cfgValid := rfl
@[simp] theorem State.latch_xportReady (s : State) (w : Word) : (s.latch w).xportReady = s.xportReady := rfl
@[simp] theorem State.latch_result (s : State) (w : Word) : (s.latch w).result = s.result := rfl
@[simp] theorem State.latch_resultValid (s : State) (w : Word) : (s.latch w).resultValid = s.resultValid := rfl
@[simp] theorem State.latch_faultCause (s : State) (w : Word) : (s.latch w).faultCause = s.faultCause := rfl
@[simp] theorem State.latch_acc (s : State) (w : Word) : (s.latch w).acc = s.acc := rfl
@[simp] theorem State.latch_buf (s : State) (w : Word) : (s.latch w).buf = s.buf := rfl
@[simp] theorem State.latch_idx (s : State) (w : Word) : (s.latch w).idx = s.idx := rfl
@[simp] theorem State.latch_retries (s : State) (w : Word) : (s.latch w).retries = s.retries := rfl
@[simp] theorem State.latch_polls (s : State) (w : Word) : (s.latch w).polls = s.polls := rfl
@[simp] theorem State.latch_sdaLow (s : State) (w : Word) : (s.latch w).sdaLow = s.sdaLow := rfl
@[simp] theorem State.latch_sclLow (s : State) (w : Word) : (s.latch w).sclLow = s.sclLow := rfl
@[simp] theorem State.latch_st (s : State) (w : Word) : (s.latch w).st = s.st := rfl
@[simp] theorem State.latch_sdaPin (s : State) (w : Word) : (s.latch w).sdaPin = s.sdaPin := rfl
@[simp] theorem State.latch_sclPin (s : State) (w : Word) : (s.latch w).sclPin = s.sclPin := rfl
@[simp] theorem State.latch_pinMode (s : State) (w : Word) : (s.latch w).pinMode = s.pinMode := rfl
@[simp] theorem State.latch_history (s : State) (w : Word) : (s.latch w).history = s.history := rfl
@[simp] theorem State.latch_schedule (s : State) (w : Word) : (s.latch w).schedule = s.schedule := rfl
@[simp] theorem State.latch_countAnswers (s : State) (w : Word) : (s.latch w).countAnswers = s.countAnswers := rfl
@[simp] theorem State.latch_byteAnswers (s : State) (w : Word) : (s.latch w).byteAnswers = s.byteAnswers := rfl
@[simp] theorem State.latch_levelAnswers (s : State) (w : Word) : (s.latch w).levelAnswers = s.levelAnswers := rfl
@[simp] theorem State.latch_freeDraws (s : State) (w : Word) : (s.latch w).freeDraws = s.freeDraws := rfl
@[simp] theorem State.latch_reads (s : State) (w : Word) : (s.latch w).reads = s.reads := rfl

@[simp] theorem State.wait_params (s : State) (t : Nat) : (s.wait t).params = s.params := rfl
@[simp] theorem State.wait_fsm (s : State) (t : Nat) : (s.wait t).fsm = s.fsm := rfl
@[simp] theorem State.wait_cmd (s : State) (t : Nat) : (s.wait t).cmd = s.cmd := rfl
@[simp] theorem State.wait_devaddr (s : State) (t : Nat) : (s.wait t).devaddr = s.devaddr := rfl
@[simp] theorem State.wait_cfgValid (s : State) (t : Nat) : (s.wait t).cfgValid = s.cfgValid := rfl
@[simp] theorem State.wait_xportReady (s : State) (t : Nat) : (s.wait t).xportReady = s.xportReady := rfl
@[simp] theorem State.wait_result (s : State) (t : Nat) : (s.wait t).result = s.result := rfl
@[simp] theorem State.wait_resultValid (s : State) (t : Nat) : (s.wait t).resultValid = s.resultValid := rfl
@[simp] theorem State.wait_faultCause (s : State) (t : Nat) : (s.wait t).faultCause = s.faultCause := rfl
@[simp] theorem State.wait_acc (s : State) (t : Nat) : (s.wait t).acc = s.acc := rfl
@[simp] theorem State.wait_buf (s : State) (t : Nat) : (s.wait t).buf = s.buf := rfl
@[simp] theorem State.wait_idx (s : State) (t : Nat) : (s.wait t).idx = s.idx := rfl
@[simp] theorem State.wait_retries (s : State) (t : Nat) : (s.wait t).retries = s.retries := rfl
@[simp] theorem State.wait_polls (s : State) (t : Nat) : (s.wait t).polls = s.polls := rfl
@[simp] theorem State.wait_sdaLow (s : State) (t : Nat) : (s.wait t).sdaLow = s.sdaLow := rfl
@[simp] theorem State.wait_sclLow (s : State) (t : Nat) : (s.wait t).sclLow = s.sclLow := rfl
@[simp] theorem State.wait_st (s : State) (t : Nat) : (s.wait t).st = s.st := rfl
@[simp] theorem State.wait_sdaPin (s : State) (t : Nat) : (s.wait t).sdaPin = s.sdaPin := rfl
@[simp] theorem State.wait_sclPin (s : State) (t : Nat) : (s.wait t).sclPin = s.sclPin := rfl
@[simp] theorem State.wait_pinMode (s : State) (t : Nat) : (s.wait t).pinMode = s.pinMode := rfl
@[simp] theorem State.wait_history (s : State) (t : Nat) : (s.wait t).history = s.history ++ [.wait t] := rfl
@[simp] theorem State.wait_schedule (s : State) (t : Nat) : (s.wait t).schedule = s.schedule := rfl
@[simp] theorem State.wait_countAnswers (s : State) (t : Nat) : (s.wait t).countAnswers = s.countAnswers := rfl
@[simp] theorem State.wait_byteAnswers (s : State) (t : Nat) : (s.wait t).byteAnswers = s.byteAnswers := rfl
@[simp] theorem State.wait_levelAnswers (s : State) (t : Nat) : (s.wait t).levelAnswers = s.levelAnswers := rfl
@[simp] theorem State.wait_freeDraws (s : State) (t : Nat) : (s.wait t).freeDraws = s.freeDraws := rfl
@[simp] theorem State.wait_reads (s : State) (t : Nat) : (s.wait t).reads = s.reads := rfl

@[simp] theorem State.finish_params (s : State) (op : Op) (r : Option Word) : (s.finish op r).params = s.params := rfl
@[simp] theorem State.finish_fsm (s : State) (op : Op) (r : Option Word) : (s.finish op r).fsm = .idle := rfl
@[simp] theorem State.finish_cmd (s : State) (op : Op) (r : Option Word) : (s.finish op r).cmd = s.cmd := rfl
@[simp] theorem State.finish_devaddr (s : State) (op : Op) (r : Option Word) : (s.finish op r).devaddr = s.devaddr := rfl
@[simp] theorem State.finish_cfgValid (s : State) (op : Op) (r : Option Word) : (s.finish op r).cfgValid = s.cfgValid := rfl
@[simp] theorem State.finish_xportReady (s : State) (op : Op) (r : Option Word) : (s.finish op r).xportReady = s.xportReady := rfl
@[simp] theorem State.finish_result (s : State) (op : Op) (r : Option Word) : (s.finish op r).result = s.result := rfl
@[simp] theorem State.finish_resultValid (s : State) (op : Op) (r : Option Word) : (s.finish op r).resultValid = s.resultValid := rfl
@[simp] theorem State.finish_faultCause (s : State) (op : Op) (r : Option Word) : (s.finish op r).faultCause = s.faultCause := rfl
@[simp] theorem State.finish_acc (s : State) (op : Op) (r : Option Word) : (s.finish op r).acc = s.acc := rfl
@[simp] theorem State.finish_buf (s : State) (op : Op) (r : Option Word) : (s.finish op r).buf = s.buf := rfl
@[simp] theorem State.finish_idx (s : State) (op : Op) (r : Option Word) : (s.finish op r).idx = s.idx := rfl
@[simp] theorem State.finish_retries (s : State) (op : Op) (r : Option Word) : (s.finish op r).retries = s.retries := rfl
@[simp] theorem State.finish_polls (s : State) (op : Op) (r : Option Word) : (s.finish op r).polls = s.polls := rfl
@[simp] theorem State.finish_sdaLow (s : State) (op : Op) (r : Option Word) : (s.finish op r).sdaLow = s.sdaLow := rfl
@[simp] theorem State.finish_sclLow (s : State) (op : Op) (r : Option Word) : (s.finish op r).sclLow = s.sclLow := rfl
@[simp] theorem State.finish_st (s : State) (op : Op) (r : Option Word) : (s.finish op r).st = s.st := rfl
@[simp] theorem State.finish_sdaPin (s : State) (op : Op) (r : Option Word) : (s.finish op r).sdaPin = s.sdaPin := rfl
@[simp] theorem State.finish_sclPin (s : State) (op : Op) (r : Option Word) : (s.finish op r).sclPin = s.sclPin := rfl
@[simp] theorem State.finish_pinMode (s : State) (op : Op) (r : Option Word) : (s.finish op r).pinMode = s.pinMode := rfl
@[simp] theorem State.finish_history (s : State) (op : Op) (r : Option Word) : (s.finish op r).history = s.history ++ [.done op r] := rfl
@[simp] theorem State.finish_schedule (s : State) (op : Op) (r : Option Word) : (s.finish op r).schedule = s.schedule := rfl
@[simp] theorem State.finish_countAnswers (s : State) (op : Op) (r : Option Word) : (s.finish op r).countAnswers = s.countAnswers := rfl
@[simp] theorem State.finish_byteAnswers (s : State) (op : Op) (r : Option Word) : (s.finish op r).byteAnswers = s.byteAnswers := rfl
@[simp] theorem State.finish_levelAnswers (s : State) (op : Op) (r : Option Word) : (s.finish op r).levelAnswers = s.levelAnswers := rfl
@[simp] theorem State.finish_freeDraws (s : State) (op : Op) (r : Option Word) : (s.finish op r).freeDraws = s.freeDraws := rfl
@[simp] theorem State.finish_reads (s : State) (op : Op) (r : Option Word) : (s.finish op r).reads = s.reads := rfl

end Sys2Proof.Machine
end

