-- ==== Sys2Proof/Laws/Ops.lean ====
section
/-! SUPPORT. What each shared operation over the state can do, said once. -/

namespace Sys2Proof.Machine

@[simp] theorem State.modeOf_goto (s : State) (f : Fsm) (p : Byte) :
    (s.goto f).modeOf p = s.modeOf p := rfl

@[simp] theorem State.modeOf_emit (s : State) (e : Event) (p : Byte) :
    (s.emit e).modeOf p = s.modeOf p := rfl

@[simp] theorem State.modeOf_wait (s : State) (t : Nat) (p : Byte) :
    (s.wait t).modeOf p = s.modeOf p := rfl

@[simp] theorem State.modeOf_finish (s : State) (op : Op) (r : Option Word) (p : Byte) :
    (s.finish op r).modeOf p = s.modeOf p := rfl

@[simp] theorem State.modeOf_withSchedule (s : State) (r : List Turn) (p : Byte) :
    (s.withSchedule r).modeOf p = s.modeOf p := rfl

@[simp] theorem State.modeOf_latch (s : State) (w : Word) (p : Byte) :
    (s.latch w).modeOf p = s.modeOf p := rfl

/-- Two states with the same pins have the same modes. -/
theorem State.modeOf_congr {s t : State} (h : t.pinMode = s.pinMode) (p : Byte) :
    t.modeOf p = s.modeOf p := by
  unfold State.modeOf
  simp only [h]

/-- `P.mode(p, m)` sets the mode of `p` and of no other pin. -/
theorem State.modeOf_setMode (s : State) (p q : Byte) (m : PinMode) :
    (s.setMode p m).modeOf q = if q = p then m else s.modeOf q := by
  unfold State.modeOf
  simp only [State.setMode_pinMode, Vector.getElem_set]
  by_cases h : q = p
  · simp [h]
  · have : ¬ p.toNat = q.toNat := fun e => h (BitVec.eq_of_toNat_eq e.symm)
    simp [h, this]

/-- Drawing a level changes the Environment's record only. -/
theorem State.drawLevel_state (s : State) :
    s.drawLevel.2 = { s with
      levelAnswers := s.levelAnswers.tail
      freeDraws := if s.levelAnswers = [] then s.freeDraws + 1 else s.freeDraws } := by
  unfold State.drawLevel
  split <;> simp_all

/-- Drawing a count changes the Transport's record only. -/
theorem State.drawCount_state (s : State) :
    s.drawCount.2 = { s with
      countAnswers := s.countAnswers.tail
      freeDraws := if s.countAnswers = [] then s.freeDraws + 1 else s.freeDraws } := by
  unfold State.drawCount
  split <;> simp_all

/-- Drawing a byte changes the Transport's record only. -/
theorem State.drawByte_state (s : State) :
    s.drawByte.2 = { s with
      byteAnswers := s.byteAnswers.tail
      freeDraws := if s.byteAnswers = [] then s.freeDraws + 1 else s.freeDraws } := by
  unfold State.drawByte
  split <;> simp_all

/-- A sample changes the Environment's record and the history only. -/
theorem State.sample_state (s : State) (p : Byte) :
    (s.sample p).2 = { s with
      levelAnswers := s.levelAnswers.tail
      freeDraws := if s.levelAnswers = [] then s.freeDraws + 1 else s.freeDraws
      history := s.history ++ [.sample p (s.sample p).1] } := by
  simp [State.sample, State.drawLevel_state, State.emit]

/-- `T.available()` changes the Transport's record and the history only. -/
theorem State.available_state (s : State) :
    s.available.2 = { s with
      countAnswers := s.countAnswers.tail
      freeDraws := if s.countAnswers = [] then s.freeDraws + 1 else s.freeDraws
      history := s.history ++ [.tAvail s.available.1] } := by
  simp [State.available, State.drawCount_state, State.emit]

/-- `T.read()` changes the Transport's record and the history only. -/
theorem State.readByte_state (s : State) :
    s.readByte.2 = { s with
      byteAnswers := s.byteAnswers.tail
      freeDraws := if s.byteAnswers = [] then s.freeDraws + 1 else s.freeDraws
      history := s.history ++ [.tRead s.readByte.1] } := by
  simp [State.readByte, State.drawByte_state, State.emit]

/-- Releasing a pin leaves it released and every other pin as it was. -/
theorem State.modeOf_releaseIfDriven (s : State) (p q : Byte) :
    (s.releaseIfDriven p).modeOf q =
      if q = p ∧ s.modeOf p = .output then .input else s.modeOf q := by
  unfold State.releaseIfDriven
  by_cases h : s.modeOf p = .output <;> simp [h, State.modeOf_setMode]

/-- Releasing a pin changes its mode and the history only. -/
theorem State.releaseIfDriven_state (s : State) (p : Byte) :
    s.releaseIfDriven p = { s with
      pinMode := (s.releaseIfDriven p).pinMode
      history := s.history ++ if s.modeOf p = .output then [.mode p .input] else [] } := by
  unfold State.releaseIfDriven
  by_cases h : s.modeOf p = .output <;> simp [h, State.setMode, State.emit]

/-- Outside CLR no pin is released by a fault (R241). -/
theorem State.releasePins_of_not_clear (s : State) (h : s.fsm.family ≠ .clear) :
    s.releasePins = s := by
  simp [State.releasePins, h]

/-- Releasing the pins changes their modes and the history only (R241). -/
theorem State.releasePins_state (s : State) :
    s.releasePins = { s with
      pinMode := s.releasePins.pinMode, history := s.releasePins.history } := by
  unfold State.releasePins
  split
  · rw [State.releaseIfDriven_state, State.releaseIfDriven_state s]
  · rfl

/-- Fault entry writes the cause, `fsm`, the modes of released pins and the history, and nothing else
(R241). -/
theorem State.raiseFault_state (s : State) (c : FaultCause) :
    s.raiseFault c = { s with
      faultCause := c, fsm := .fault
      pinMode := s.releasePins.pinMode, history := s.releasePins.history ++ [.fault c] } := by
  unfold State.raiseFault
  rw [State.releasePins_state]
  rfl

@[simp] theorem State.raiseFault_params (s : State) (c : FaultCause) :
    (s.raiseFault c).params = s.params := by
  rw [State.raiseFault_state]

/-- Fault entry outside CLR writes the cause, the event and `fsm`, and nothing else (R241). -/
theorem State.raiseFault_of_not_clear (s : State) (c : FaultCause) (h : s.fsm.family ≠ .clear) :
    s.raiseFault c = { s with
      faultCause := c, history := s.history ++ [.fault c], fsm := .fault } := by
  simp [State.raiseFault, State.releasePins_of_not_clear s h, State.emit, State.goto]

/-- Whatever runs, fault entry ends in `FAULT` with the cause. -/
@[simp] theorem State.raiseFault_fsm (s : State) (c : FaultCause) :
    (s.raiseFault c).fsm = .fault := rfl

@[simp] theorem State.raiseFault_faultCause (s : State) (c : FaultCause) :
    (s.raiseFault c).faultCause = c := rfl

/-- The mode of a pin after fault entry (R241). -/
theorem State.modeOf_raiseFault (s : State) (c : FaultCause) (q : Byte) :
    (s.raiseFault c).modeOf q = s.releasePins.modeOf q := rfl

/-- Fault entry in CLR: both pins are looked at, SDA first (R241). -/
theorem State.modeOf_releasePins (s : State) (q : Byte) (h : s.fsm.family = .clear) :
    s.releasePins.modeOf q =
      if (q = s.sdaPin ∨ q = s.sclPin) ∧ s.modeOf q = .output then .input else s.modeOf q := by
  simp only [State.releasePins, h, if_true]
  rw [State.modeOf_releaseIfDriven, State.modeOf_releaseIfDriven, State.modeOf_releaseIfDriven]
  by_cases h1 : q = s.sdaPin <;> by_cases h2 : q = s.sclPin <;>
    by_cases h3 : s.modeOf q = .output <;> simp_all

/-- What the accept step can do (R111): start the command, or take the first failing check's fault. -/
theorem accept_cases (i : Instr) (start : State → State) (s : State) :
    (firstFailingCheck i s = .noFault ∧ accept i start s = .next (start (s.latch (encode i)))) ∨
    (firstFailingCheck i s ≠ .noFault ∧
      accept i start s = .next ((s.latch (encode i)).raiseFault (firstFailingCheck i s))) := by
  unfold accept
  cases h : firstFailingCheck i s <;> simp

end Sys2Proof.Machine
end

