-- ==== Sys2Proof/Laws/Exec.lean ====
section
/-! SUPPORT. What the step of a command can do, said once: the inversion of `exec`. -/

namespace Sys2Proof.Machine

/-- The accept step of a command starts it in this state (R111, R146). -/
def started : Instr → State → State
  | .cfg addr, s => startCfg addr s
  | .wr _ _, s => s.goto .wBegin
  | .rdu _ _, s => s.goto .rBegin
  | .rds _ _, s => s.goto .rBegin
  | .clr sda scl, s => startClr sda scl s

/-- A step of WR after accept (R148). -/
inductive WrStep (reg val : Byte) (s : State) : State → Prop where
  | wBegin (h : s.fsm = .wBegin) : WrStep reg val s ((beginTransaction s).goto .wReg)
  | wReg (h : s.fsm = .wReg) : WrStep reg val s ((s.emit (.tWrite reg)).goto .wVal)
  | wVal (h : s.fsm = .wVal) : WrStep reg val s ((s.emit (.tWrite val)).goto .wEnd)
  | wEnd (h : s.fsm = .wEnd) : WrStep reg val s ((s.emit .tEnd).finish .wr none)

/-- A step of RDU or RDS after accept (R149, R152, R155, R156). -/
inductive ReadStep (op : Op) (reg : Byte) (n : BitVec 3) (value : Word → Word) (s : State) :
    State → Prop where
  | rBegin (h : s.fsm = .rBegin) : ReadStep op reg n value s ((beginTransaction s).goto .rReg)
  | rReg (h : s.fsm = .rReg) : ReadStep op reg n value s ((s.emit (.tWrite reg)).goto .rEnd)
  | rEnd (h : s.fsm = .rEnd) : ReadStep op reg n value s ((s.emit .tEnd).goto .rReq)
  | rReq (h : s.fsm = .rReq) :
      ReadStep op reg n value s ((s.emit (.tRequest s.devaddr n)).goto .rPoll)
  | rPoll (h : s.fsm = .rPoll) : ReadStep op reg n value s (pollStep n s)
  | rRead (h : s.fsm = .rRead) : ReadStep op reg n value s (readStep n s)
  | rDone (h : s.fsm = .rDone) : ReadStep op reg n value s (deliver op (value s.acc) s)

/-- A step of CLR after accept: the rows of R185. -/
inductive ClrStep (s : State) : State → Prop where
  | cbInit (h : s.fsm = .cbInit) : ClrStep s (handOver s)
  | cbRelSda (h : s.fsm = .cbRelSda) :
      ClrStep s ((s.setMode s.sdaPin .inputPullup).goto .cbRelScl)
  | cbRelScl (h : s.fsm = .cbRelScl) :
      ClrStep s ((s.setMode s.sclPin .inputPullup).goto .cbSettle)
  | cbSettle (h : s.fsm = .cbSettle) : ClrStep s ((s.wait s.params.tSettle).goto .cbChkScl)
  | cbChkScl (h : s.fsm = .cbChkScl) : ClrStep s (checkScl s)
  | cbChkSda (h : s.fsm = .cbChkSda) : ClrStep s (checkSda s)
  | cbLoop (h : s.fsm = .cbLoop) : ClrStep s (pulseLoop s)
  | cbPulseLow (h : s.fsm = .cbPulseLow) : ClrStep s ((s.setMode s.sclPin .output).goto .cbHoldLow)
  | cbHoldLow (h : s.fsm = .cbHoldLow) : ClrStep s ((s.wait s.params.tPulseLow).goto .cbPulseRel)
  | cbPulseRel (h : s.fsm = .cbPulseRel) :
      ClrStep s ((s.setMode s.sclPin .inputPullup).goto .cbHoldHigh)
  | cbHoldHigh (h : s.fsm = .cbHoldHigh) : ClrStep s ((s.wait s.params.tPulseHigh).goto .cbStrChk)
  | cbStrChk (h : s.fsm = .cbStrChk) : ClrStep s (stretchCheck s)
  | cbStrTest (h : s.fsm = .cbStrTest) : ClrStep s (stretchTest s)
  | cbStrWait (h : s.fsm = .cbStrWait) : ClrStep s ((s.wait s.params.tPoll).goto .cbStrSample)
  | cbStrSample (h : s.fsm = .cbStrSample) : ClrStep s (stretchSample s)
  | cbRecheckSda (h : s.fsm = .cbRecheckSda) : ClrStep s (recheckSda s)
  | cbStart (h : s.fsm = .cbStart) : ClrStep s ((s.setMode s.sdaPin .output).goto .cbStartHold)
  | cbStartHold (h : s.fsm = .cbStartHold) : ClrStep s ((s.wait s.params.tSdaHold).goto .cbStop)
  | cbStop (h : s.fsm = .cbStop) : ClrStep s ((s.setMode s.sdaPin .inputPullup).goto .cbStopHold)
  | cbStopHold (h : s.fsm = .cbStopHold) : ClrStep s (stopHold s)
  | cbFinSda (h : s.fsm = .cbFinSda) : ClrStep s ((s.setMode s.sdaPin .input).goto .cbFinScl)
  | cbFinScl (h : s.fsm = .cbFinScl) : ClrStep s (reportStatus s)

/-- The steps of a command after accept. CFG has none (R146). -/
def RunningStep : Instr → State → State → Prop
  | .cfg _, _, _ => False
  | .wr reg val, s, t => WrStep reg val s t
  | .rdu reg n, s, t => ReadStep .rdu reg n (unsignedValue n) s t
  | .rds reg n, s, t => ReadStep .rds reg n (signedValue n) s t
  | .clr _ _, s, t => ClrStep s t

/-- Everything the step of a command can do, if it answers a next state. -/
inductive Ran (i : Instr) (s t : State) : Prop where
  /-- In `FAULT` no command is taken (R242). -/
  | ignored (faulted : s.fsm = .fault) (eq : t = s)
  /-- The accept step took the first failing check's fault. -/
  | rejected (idle : s.fsm = .idle) (fails : firstFailingCheck i s ≠ .noFault)
      (eq : t = (s.latch (encode i)).raiseFault (firstFailingCheck i s))
  /-- The accept step started the command. -/
  | started (idle : s.fsm = .idle) (passes : firstFailingCheck i s = .noFault)
      (eq : t = started i (s.latch (encode i)))
  /-- A later step of the command. -/
  | running (step : RunningStep i s t)

theorem ran_of_accept (i : Instr) (s t : State) (idle : s.fsm = .idle)
    (h : accept i (started i) s = .next t) : Ran i s t := by
  obtain ⟨hc, he⟩ | ⟨hc, he⟩ := accept_cases i (started i) s
  · rw [he] at h
    cases h
    exact .started idle hc rfl
  · rw [he] at h
    cases h
    exact .rejected idle hc rfl

/-- The inversion of `exec`. -/
theorem exec_next_cases (i : Instr) (s t : State) (h : exec i s = .next t) : Ran i s t := by
  cases i <;> simp only [exec, execCfg, execWr, execRdu, execRds, readCommand, execClr] at h <;>
    split at h <;> first
    | exact ran_of_accept _ s t ‹_› h
    | cases h
  all_goals first
    | exact .ignored ‹_› rfl
    | exact .running (by constructor; assumption)

end Sys2Proof.Machine
end

