-- ==== Sys2Proof/Laws/PerInstr.lean ====
section
/-! SUPPORT. The per-instruction family MatchesFormat: the word of a command matches the mask and the
match value of its row of the opcode table (R114). -/

namespace Sys2Proof.Laws.MatchesFormat

/-- The encoded word has its command's format. -/
def Statement (i : Instr) : Prop := encode i &&& i.op.mask = i.op.pattern

theorem cfg (addr : Byte) : Statement (.cfg addr) := by
  apply BitVec.eq_of_getLsbD_eq
  intro k hk
  simp only [encode, Instr.op, packWord, Op.code, Op.mask, Op.pattern, BitVec.getLsbD_and,
    BitVec.getLsbD_append]
  interval_cases k <;> simp

theorem wr (reg val : Byte) : Statement (.wr reg val) := by
  apply BitVec.eq_of_getLsbD_eq
  intro k hk
  simp only [encode, Instr.op, packWord, Op.code, Op.mask, Op.pattern, BitVec.getLsbD_and,
    BitVec.getLsbD_append]
  interval_cases k <;> simp

theorem rdu (reg : Byte) (nb : BitVec 3) : Statement (.rdu reg nb) := by
  apply BitVec.eq_of_getLsbD_eq
  intro k hk
  simp only [encode, Instr.op, packWord, Op.code, Op.mask, Op.pattern, BitVec.getLsbD_and,
    BitVec.getLsbD_append]
  interval_cases k <;> simp

theorem rds (reg : Byte) (nb : BitVec 3) : Statement (.rds reg nb) := by
  apply BitVec.eq_of_getLsbD_eq
  intro k hk
  simp only [encode, Instr.op, packWord, Op.code, Op.mask, Op.pattern, BitVec.getLsbD_and,
    BitVec.getLsbD_append]
  interval_cases k <;> simp

theorem clr (sda scl : Byte) : Statement (.clr sda scl) := by
  apply BitVec.eq_of_getLsbD_eq
  intro k hk
  simp only [encode, Instr.op, packWord, Op.code, Op.mask, Op.pattern, BitVec.getLsbD_and,
    BitVec.getLsbD_append]
  interval_cases k <;> simp

end Sys2Proof.Laws.MatchesFormat
end

