-- ==== Sys2Proof/Laws/Step.lean ====
section
/-! SUPPORT. What one step of the model can do, said once. -/

namespace Sys2Proof.Machine

/-- The sequencer runs no command exactly in `IDLE` and `FAULT` (R33). -/
theorem State.busy_eq_false (s : State) : s.busy = false ↔ s.fsm = .idle ∨ s.fsm = .fault := by
  unfold State.busy
  cases s.fsm <;> decide

@[simp] theorem State.busy_withSchedule (s : State) (r : List Turn) :
    (s.withSchedule r).busy = s.busy := rfl

/-- A command runs exactly outside `IDLE` and `FAULT` (R33). -/
theorem State.busy_eq_true (s : State) : s.busy = true ↔ s.fsm ≠ .idle ∧ s.fsm ≠ .fault := by
  rw [← Bool.not_eq_false, State.busy_eq_false, not_or]

/-- The sequencer's turn: a step of the running command, a stop for want of one, or nothing. -/
theorem sequencerTurn_cases (s : State) :
    (∃ i, s.busy = true ∧ decode s.cmd = .ok i ∧ sequencerTurn s = .run i s) ∨
    (s.busy = true ∧ sequencerTurn s = .settled (.fault .noCommand)) ∨
    (s.busy = false ∧ sequencerTurn s = .settled (.next s)) := by
  unfold sequencerTurn
  cases hb : s.busy
  · exact .inr (.inr ⟨rfl, rfl⟩)
  · cases hd : decode s.cmd with
    | ok i => exact .inl ⟨i, rfl, rfl, rfl⟩
    | error r => exact .inr (.inl ⟨rfl, rfl⟩)

/-- The Host's issue of a word (R57): ignored in `FAULT`, CONCURRENT_USE while a command runs, and in
`IDLE` the accept step. -/
theorem hostIssue_cases (w : Word) (s : State) :
    (s.fsm = .fault ∧ hostIssue w s = .settled (.next s)) ∨
    (s.busy = true ∧ hostIssue w s = .settled (.next (s.raiseFault .concurrentUse))) ∨
    (∃ i, s.fsm = .idle ∧ decode w = .ok i ∧ hostIssue w s = .run i s) ∨
    (∃ r, s.fsm = .idle ∧ decode w = .error r ∧
      hostIssue w s = .settled (.next (acceptReserved w s))) := by
  unfold hostIssue
  by_cases hf : s.fsm = .fault
  · exact .inl ⟨hf, by simp [hf]⟩
  · cases hb : s.busy
    · have hi : s.fsm = .idle := ((s.busy_eq_false).mp hb).resolve_right hf
      cases hd : decode w with
      | ok i => exact .inr (.inr (.inl ⟨i, hi, rfl, by simp [hi]⟩))
      | error r => exact .inr (.inr (.inr ⟨r, hi, rfl, by simp [hi]⟩))
    · exact .inr (.inl ⟨rfl, by simp [hf]⟩)

/-- The schedule's first turn is the Host's, with `r` left: at once, or with `BUSY = 0` waited for. -/
def State.hostMoves (s : State) (a : HostAction) (r : List Turn) : Prop :=
  s.schedule = .host a :: r ∨ (s.busy = false ∧ s.schedule = .hostWhenReady a :: r)

/-- Everything a step can do, if it answers a next state: `r` is what is left of the schedule. -/
inductive Moved (s t : State) : Prop where
  /-- A step of the running command. -/
  | running (i : Instr) (r : List Turn) (busy : s.busy = true) (cmd : decode s.cmd = .ok i)
      (runs : exec i (s.withSchedule r) = .next t)
  /-- The accept step of an issued word that has a format. -/
  | accepted (i : Instr) (w : Word) (r : List Turn) (turn : s.hostMoves (.issue w) r)
      (idle : s.fsm = .idle)
      (word : decode w = .ok i) (runs : exec i (s.withSchedule r) = .next t)
  /-- Nothing but the schedule: an idle sequencer, or a word issued in `FAULT`. -/
  | quiet (r : List Turn) (quiet : s.busy = false) (eq : t = s.withSchedule r)
  /-- A word issued while a command runs. -/
  | concurrent (w : Word) (r : List Turn) (turn : s.hostMoves (.issue w) r) (busy : s.busy = true)
      (eq : t = (s.withSchedule r).raiseFault .concurrentUse)
  /-- The accept step of a reserved word. -/
  | reserved (w : Word) (r : List Turn) (turn : s.hostMoves (.issue w) r) (idle : s.fsm = .idle)
      (eq : t = acceptReserved w (s.withSchedule r))
  /-- A Host read. -/
  | read (n : Nat) (v : Word) (r : List Turn) (turn : s.hostMoves (.read n) r)
      (eq : t = { s with schedule := r, reads := s.reads ++ [(n, v)] })
  /-- `InitTransport`. -/
  | init (r : List Turn) (turn : s.hostMoves .initTransport r) (idle : s.fsm = .idle)
      (eq : t = { s with schedule := r, xportReady := true })
  /-- `Reset`. -/
  | reset (r : List Turn) (turn : s.hostMoves .reset r) (eq : t = (s.withSchedule r).applyReset)

/-- What a plan comes to. -/
def Plan.answer : Plan → Answer
  | .run i t => exec i t
  | .settled o => o

theorem step_eq_answer (s : State) : step s = (nextTurn s).answer := by
  unfold step Plan.answer
  rfl

/-- The sequencer's turn, taken with the schedule `r` left. -/
theorem moved_of_sequencerTurn (s t : State) (r : List Turn)
    (h : (sequencerTurn (s.withSchedule r)).answer = .next t) : Moved s t := by
  obtain ⟨i, hb, hd, he⟩ | ⟨hb, he⟩ | ⟨hb, he⟩ := sequencerTurn_cases (s.withSchedule r)
  · rw [he] at h
    exact .running i r hb hd h
  · rw [he] at h
    cases h
  · rw [he] at h
    cases h
    exact .quiet r hb rfl

/-- The Host's turn, taken with the schedule `r` left. -/
theorem moved_of_hostTurn (a : HostAction) (s t : State) (r : List Turn) (m : s.hostMoves a r)
    (h : (hostTurn a (s.withSchedule r)).answer = .next t) : Moved s t := by
  cases a with
  | issue w =>
    simp only [hostTurn] at h
    obtain ⟨hf, he⟩ | ⟨hb, he⟩ | ⟨i, hi, hd, he⟩ | ⟨q, hi, hd, he⟩ :=
      hostIssue_cases w (s.withSchedule r)
    · rw [he] at h
      cases h
      exact .quiet r ((s.busy_eq_false).mpr (.inr hf)) rfl
    · rw [he] at h
      cases h
      exact .concurrent w r m hb rfl
    · rw [he] at h
      exact .accepted i w r m hi hd h
    · rw [he] at h
      cases h
      exact .reserved w r m hi rfl
  | read n =>
    simp only [hostTurn, Plan.answer, hostRead] at h
    split at h
    · next v _ =>
      cases h
      exact .read n v r m rfl
    · cases h
  | initTransport =>
    simp only [hostTurn, Plan.answer, hostInitTransport] at h
    split at h
    · next hi =>
      cases h
      exact .init r m hi rfl
    · cases h
  | reset =>
    cases h
    exact .reset r m rfl

/-- The inversion of `step`: a next state comes about in one of the ways of `Moved`. -/
theorem step_next_cases (s t : State) (h : step s = .next t) : Moved s t := by
  rw [step_eq_answer] at h
  unfold nextTurn at h
  split at h
  · exact moved_of_sequencerTurn s t s.schedule h
  · exact moved_of_sequencerTurn s t _ h
  · next a r hs => exact moved_of_hostTurn a s t r (.inl hs) h
  · next a r hs =>
    split at h
    · exact moved_of_sequencerTurn s t s.schedule h
    · next hb => exact moved_of_hostTurn a s t r (.inr ⟨Bool.eq_false_iff.mpr hb, hs⟩) h

end Sys2Proof.Machine
end

