-- ==== Sys2Proof/Tests/Slice0.lean ====
section
/-! SUPPORT. Tests whose expected values come from the spec's worked examples and vectors
(30_encoding.md R119, 95_test_vectors.md), and a witness for the hypotheses of each statement. -/

namespace Sys2Proof.Tests

open Sys2Proof.Machine

/-- The parameters the vectors assume: `PIN_COUNT` = 32 and a bus controller. -/
def vectorParams : Params :=
  { maxPin := 31, hasBusController := true, tSettle := 7, tPulseLowBeyond := 0,
    tPulseHighBeyond := 1, tSdaHoldBeyond := 2 }

/-- The block after reset, with the vectors' parameters. -/
def fresh : State := { State.reset with params := vectorParams }

/-- The start of the vectors of section 4: configured to 0x68, transport ready. -/
def ready : State := { fresh with devaddr := 0x68, cfgValid := true, xportReady := true }

/-- `ready` in a sequencer state, with `clr 18, 19` latched. -/
def clearing (f : Fsm) : State :=
  { ready with fsm := f, cmd := 0x13120005, sdaPin := 18, sclPin := 19 }

/-- `ready` in a sequencer state, with `rds 0x10, 3` latched. -/
def reading (f : Fsm) : State := { ready with fsm := f, cmd := 0x00001034 }

/-- A field of the next state. -/
def field {α : Type} (f : State → α) : Host.Outcome State Fault Refusal → Option α
  | .next t => some (f t)
  | _ => none

/-! ## WellFormed refuses an ill-formed operand of each check (R115) -/

theorem test_wellFormed_addr :
    (Instr.cfg 127).wellFormed vectorParams = true ∧
    (Instr.cfg 128).wellFormed vectorParams = false := by decide

theorem test_wellFormed_numBytes :
    (Instr.rdu 0x10 1).wellFormed vectorParams = true ∧
    (Instr.rdu 0x10 4).wellFormed vectorParams = true ∧
    (Instr.rdu 0x10 0).wellFormed vectorParams = false ∧
    (Instr.rds 0x10 5).wellFormed vectorParams = false := by decide

theorem test_wellFormed_pins :
    (Instr.clr 31 0).wellFormed vectorParams = true ∧
    (Instr.clr 32 19).wellFormed vectorParams = false ∧
    (Instr.clr 18 32).wellFormed vectorParams = false ∧
    (Instr.clr 18 18).wellFormed vectorParams = false := by decide

/-! ## Words written out bit by bit from the diagram of R112: B3, B2, REG, RSV, NB, OP -/

theorem test_decode_cfg :
    decode 0b00000000_01101000_00000000_0_000_0001#32 = .ok (.cfg 0x68) := by decide

theorem test_decode_wr :
    decode 0b00000000_00011000_00011011_0_000_0010#32 = .ok (.wr 0x1B 0x18) := by decide

theorem test_decode_rdu :
    decode 0b00000000_00000000_01110101_0_001_0011#32 = .ok (.rdu 0x75 1) := by decide

theorem test_decode_rds :
    decode 0b00000000_00000000_00010000_0_100_0100#32 = .ok (.rds 0x10 4) := by decide

theorem test_decode_clr :
    decode 0b00010011_00010010_00000000_0_000_0101#32 = .ok (.clr 18 19) := by decide

/-- Vectors E6, E10, E11, E18, E23 to E26: a fixed field or the opcode is wrong. -/
theorem test_decode_reserved :
    decode 0x00680011#32 = .error (.fixedField .cfg) ∧
    decode 0x01006B02#32 = .error (.fixedField .wr) ∧
    decode 0x00001083#32 = .error (.fixedField .rdu) ∧
    decode 0x00011014#32 = .error (.fixedField .rds) ∧
    decode 0x13120105#32 = .error (.fixedField .clr) ∧
    decode 0x00000000#32 = .error .opcode ∧ decode 0xFFFFFFFF#32 = .error .opcode := by decide

/-- The assembler's words (R118, R119). -/
theorem test_encode_examples :
    encode (.cfg 0x68) = 0x00680001#32 ∧ encode (.wr 0x6B 0) = 0x00006B02#32 ∧
    encode (.rdu 0x10 3) = 0x00001033#32 ∧ encode (.rds 0x3B 2) = 0x00003B24#32 ∧
    encode (.clr 18 19) = 0x13120005#32 := by decide

/-- The host asks for the instruction in a word with this function. -/
theorem test_decodeTableWord :
    decodeTableWord 32 0x00007513 = some (.rdu 0x75 1) ∧ decodeTableWord 32 0 = none := by decide

/-! ## One step from a vector -/

/-- Vector E1 and E32. -/
theorem test_cfg_configures :
    field (fun t => (t.devaddr, t.cfgValid, t.history)) (exec (.cfg 0x68) fresh) =
      some (0x68, true, [.done .cfg none]) := by decide

/-- Vector E4. -/
theorem test_cfg_addr_range :
    field State.statusWord (exec (.cfg 0x80) ready) = some 0x316 := by decide

/-- Vector R1, third step: the value follows the register address. -/
theorem test_wr_writes_value :
    field (fun t => (t.fsm, t.history)) (exec (.wr 0x6B 0x07) (ready.goto .wVal)) =
      some (.wEnd, [.tWrite 0x07]) := by decide

/-- Vector E30: configuration before transport. -/
theorem test_wr_not_configured :
    field State.statusWord (exec (.wr 0x6B 0) { fresh with xportReady := true }) = some 0x612 := by
  decide

/-- Vector R4: two bytes are too few for three. -/
theorem test_rdu_polls :
    field (fun t => (t.fsm, t.history))
      (exec (.rdu 0x10 3) { reading .rPoll with countAnswers := [2, 3] }) =
      some (.rPoll, [.tAvail 2]) := by decide

/-- Vector A10, the accumulator trace: the third byte. -/
theorem test_rdu_last_byte :
    field (fun t => (t.fsm, t.acc, t.idx))
      (exec (.rdu 0x10 3) { reading .rRead with acc := 0x0102, idx := 2, byteAnswers := [3] }) =
      some (.rDone, 0x010203, 3) := by decide

/-- Vector A13: `0xFFFFFE` in three bytes is -2. -/
theorem test_rds_delivers_negative :
    field State.result (exec (.rds 0x10 3) { reading .rDone with acc := 0xFFFFFE }) =
      some 0xFFFFFFFE := by decide

/-- Vector A17: at four bytes the sign extension is the identity. -/
theorem test_rds_four_bytes :
    field State.result (exec (.rds 0x10 4) { reading .rDone with acc := 0xDEADBEEF }) =
      some 0xDEADBEEF := by decide

/-- Vector B7, the last sample of the stretch wait. -/
theorem test_clr_stretch_timeout :
    field (fun t => (t.fsm, t.st))
      (exec (.clr 18 19) { clearing .cbStrTest with sclLow := true, polls := 0 }) =
      some (.cbFinSda, 2) := by decide

/-- Vector E22: range before conflict. -/
theorem test_clr_pin_range :
    field State.statusWord (exec (.clr 32 32) ready) = some 0x416 := by decide

/-- Vector F5: a word issued while SCL is driven releases SCL and faults. -/
theorem test_concurrent_use_releases :
    field (fun t => (t.fsm, t.history, t.modeOf 19))
      (step { (clearing .cbHoldLow).setMode 19 .output with
        history := [], schedule := [.host (.issue 0x00680001)] }) =
      some (.fault, [.mode 19 .input, .fault .concurrentUse], .input) := by decide

/-- Vectors F8 and F10. -/
theorem test_host_reads :
    fresh.hostRegister 1 = none ∧ fresh.hostRegister 2 = none ∧
    fresh.hostRegister 0 = some 0 ∧ ready.hostRegister 2 = some 0x68 ∧
    ready.hostRegister 3 = none := by decide

/-- The word the host places is the word the next step accepts. -/
theorem test_withFetchWord :
    field (fun t => (t.fsm, t.cmd)) (step (ready.withFetchWord 32 0x00007513)) =
      some (.rBegin, 0x00007513) := by decide

/-! ## Witnesses: a state and operands that meet each statement's hypotheses -/

/-- Every clause whose hypothesis is only that the sequencer is in a state (WrSteps, ReadFramingSteps,
PollStep, ReadDoneStep, the steps of CLR, AcceptTakesFirstFailingCheck). -/
theorem witness_state_of_sequencer : ∀ f : Fsm, (ready.goto f).fsm = f := fun _ => rfl

/-- The commands of ReadFramingSteps, PollStep and ReadByteStep. -/
theorem witness_read_commands :
    (Instr.rdu 0x10 3 = .rdu 0x10 3 ∨ Instr.rdu 0x10 3 = .rds 0x10 3) ∧
    (Instr.rds 0x10 3 = .rdu 0x10 3 ∨ Instr.rds 0x10 3 = .rds 0x10 3) := by decide

theorem witness_encodeOfDecode : decode 0x13120005#32 = .ok (.clr 18 19) := by decide

theorem witness_stepRunsIssuedWord :
    let s := { ready with schedule := [.host (.issue 0x00007513)] }
    let u := { ready with schedule := [.hostWhenReady (.issue 0x00007513)] }
    s.fsm = .idle ∧ u.fsm = .idle ∧ decode 0x00007513#32 = .ok (.rdu 0x75 1) ∧
    s.schedule = .host (.issue 0x00007513) :: [] ∧
    u.schedule = .hostWhenReady (.issue 0x00007513) :: [] := by decide

theorem witness_stepRunsLatchedWord :
    let s := clearing .cbLoop
    s.fsm ≠ .idle ∧ s.fsm ≠ .fault ∧ decode s.cmd = .ok (.clr 18 19) ∧ s.schedule = [] ∧
    (s.withSchedule [.sequencer]).schedule = .sequencer :: [] ∧
    (s.withSchedule [.hostWhenReady .reset]).schedule = .hostWhenReady .reset :: [] := by decide

theorem witness_hostActsOnceReady :
    let s := ready.withSchedule [.hostWhenReady (.read 2)]
    (s.fsm = .idle ∨ s.fsm = .fault) ∧ s.schedule = .hostWhenReady (.read 2) :: [] ∧
    ((s.goto .fault).fsm = .idle ∨ (s.goto .fault).fsm = .fault) := by decide

/-- One reserved word for each clause of ReservedWordFaults; 6 is the least reserved opcode above. -/
theorem witness_reservedWordFaults :
    let s := { ready with schedule := [.host (.issue 0x00000006)] }
    s.fsm = .idle ∧ s.schedule = .host (.issue 0x00000006) :: [] ∧
    (0x00000000#32).extractLsb' 0 4 = 0#4 ∧ 6 ≤ ((0x00000006#32).extractLsb' 0 4).toNat ∧
    ((0x00680101#32).extractLsb' 0 4 = 1#4 ∧ (0x00680101#32).extractLsb' 8 8 ≠ 0#8) ∧
    ((0x01006B02#32).extractLsb' 0 4 = 2#4 ∧ (0x01006B02#32).extractLsb' 24 8 ≠ 0#8) ∧
    ((0x00001083#32).extractLsb' 0 4 = 3#4 ∧ (0x00001083#32).extractLsb' 7 1 ≠ 0#1) ∧
    ((0x00011014#32).extractLsb' 0 4 = 4#4 ∧ (0x00011014#32).extractLsb' 16 8 ≠ 0#8) ∧
    ((0x13120105#32).extractLsb' 0 4 = 5#4 ∧ (0x13120105#32).extractLsb' 8 8 ≠ 0#8) := by decide

/-- The boundary values of each check of AcceptTakesFirstFailingCheck. -/
theorem witness_acceptChecks :
    127 < (128#8).toNat ∧ ¬ 127 < (127#8).toNat ∧ (0#3).toNat = 0 ∧ 4 < (5#3).toNat ∧
    ¬ 4 < (4#3).toNat ∧ vectorParams.pinCount ≤ (32#8).toNat ∧
    ¬ vectorParams.pinCount ≤ (31#8).toNat ∧ fresh.cfgValid = false ∧ ready.cfgValid = true ∧
    fresh.xportReady = false ∧ ready.xportReady = true := by decide

theorem witness_cfgCompletes : fresh.fsm = .idle ∧ (127#8).toNat ≤ 127 := by decide

theorem witness_readByteStep :
    (reading .rRead).fsm = .rRead ∧ (reading .rRead).idx.toNat < 4 ∧
    { reading .rRead with idx := 3 }.idx.toNat < 4 := by decide

theorem witness_signExtension :
    1 ≤ (3#3).toNat ∧ (4#3).toNat ≤ 4 ∧ (0xFFFFFE#32).toNat < 2 ^ (8 * (3#3).toNat) := by decide

theorem witness_assembly : ([0xDE, 0xAD, 0xBE, 0xEF] : List Byte).length ≤ 4 := by decide

theorem witness_wrRunsItsFrame :
    let s := { ready with schedule := [.host (.issue (encode (.wr 0x6B 0)))] }
    s.fsm = .idle ∧ s.cfgValid = true ∧ s.xportReady = true ∧
    s.schedule = [.host (.issue (encode (.wr 0x6B 0)))] := by decide

/-- Vector R4, for RduRunsAndDelivers. -/
theorem witness_rduRunsAndDelivers :
    let s := { ready with
      schedule := [.host (.issue (encode (.rdu 0x10 3)))], countAnswers := [0, 2, 3],
      byteAnswers := [1, 2, 3] }
    s.fsm = .idle ∧ s.cfgValid = true ∧ s.xportReady = true ∧
    s.schedule = [.host (.issue (encode (.rdu 0x10 3)))] ∧ 1 ≤ (3#3).toNat ∧ (3#3).toNat ≤ 4 ∧
    ([1, 2, 3] : List Byte).length = (3#3).toNat ∧ (∀ c ∈ [0, 2], c < (3#3).toNat) ∧
    (3#3).toNat ≤ 3 ∧ s.countAnswers = [0, 2] ++ 3 :: [] ∧ s.byteAnswers = [1, 2, 3] ++ [] := by
  decide

/-- Vector R5, for RdsRunsAndDelivers. -/
theorem witness_rdsRunsAndDelivers :
    let s := { ready with
      schedule := [.host (.issue (encode (.rds 0x10 3)))], countAnswers := [3],
      byteAnswers := [0xFF, 0xFF, 0xFE] }
    s.fsm = .idle ∧ s.cfgValid = true ∧ s.xportReady = true ∧
    s.schedule = [.host (.issue (encode (.rds 0x10 3)))] ∧ 1 ≤ (3#3).toNat ∧ (3#3).toNat ≤ 4 ∧
    ([0xFF, 0xFF, 0xFE] : List Byte).length = (3#3).toNat ∧
    (∀ c ∈ ([] : List Nat), c < (3#3).toNat) ∧ (3#3).toNat ≤ 3 ∧
    s.countAnswers = [] ++ 3 :: [] ∧ s.byteAnswers = [0xFF, 0xFF, 0xFE] ++ [] := by decide

/-- Vector R7, for ReadWaitsWithoutBound. -/
theorem witness_readWaitsWithoutBound :
    let s := { reading .rPoll with countAnswers := [0, 0, 0] }
    s.fsm = .rPoll ∧ s.schedule = [] ∧
    (decode s.cmd = .ok (.rdu 0x10 3) ∨ decode s.cmd = .ok (.rds 0x10 3)) ∧
    (∀ c ∈ [0, 0], c < (3#3).toNat) ∧ s.countAnswers = [0, 0] ++ [0] := by decide

/-- Vector B1, for ClrStuckClockReportsOne. -/
theorem witness_clrStuckClock :
    let s := { ready with
      schedule := [.host (.issue (encode (.clr 18 19)))], levelAnswers := [.low] }
    s.fsm = .idle ∧ (Instr.clr 18 19).wellFormed s.params = true ∧
    s.schedule = [.host (.issue (encode (.clr 18 19)))] ∧ s.levelAnswers = .low :: [] := by decide

/-- Vector B3, for ClrOutcomeFollowsTheSamples and ClrTerminates. -/
theorem witness_clrOutcome :
    let s := { clearing .cbInit with levelAnswers := [.high, .low, .high, .high] }
    s.fsm = .cbInit ∧ s.schedule = [] ∧ decode s.cmd = .ok (.clr 18 19) ∧
    (Instr.clr 18 19).op = .clr ∧ s.sdaPin ≠ s.sclPin ∧
    clrOutcome s.params s.levelAnswers = some (0, 1) := by decide

/-- The function of R211 at vectors B1, B2, B6 and B7. -/
theorem test_clrOutcome_vectors :
    clrOutcome vectorParams [.low] = some (1, 0) ∧ clrOutcome vectorParams [.high, .high] = some (0, 0) ∧
    clrOutcome vectorParams (.high :: .low :: (List.replicate 20 [Level.high, Level.low]).flatten) =
      some (3, 20) ∧
    clrOutcome vectorParams (.high :: .low :: List.replicate 21 .low) = some (2, 1) := by decide

/-- A next state of a register command and of CLR, for RegisterCommandsFrame, ClrFrame and
OnePrimitivePerStep. -/
theorem witness_exec_next :
    (Instr.wr 1 2).op ≠ .clr ∧
    exec (.wr 1 2) (ready.goto .wReg) =
      .next (((ready.goto .wReg).emit (.tWrite 1)).goto .wVal) ∧
    exec (.clr 18 19) (clearing .cbSettle) =
      .next (((clearing .cbSettle).wait 7).goto .cbChkScl) :=
  ⟨by decide, rfl, rfl⟩

/-- A step that changes the address, for OnlyCfgChangesTheAddress. -/
theorem witness_address_changes :
    field State.cfgValid (step (fresh.withSchedule [.host (.issue 0x00680001)])) = some true ∧
    fresh.cfgValid = false := by decide

theorem witness_concurrentUse :
    let s := (clearing .cbHoldLow).withSchedule [.host (.issue 0)]
    s.fsm ≠ .idle ∧ s.fsm ≠ .fault ∧ s.schedule = .host (.issue 0) :: [] := by decide

theorem witness_faultIgnores :
    let s := (ready.goto .fault).withSchedule [.host (.issue 0x00680001)]
    let u := (ready.goto .fault).withSchedule [.hostWhenReady (.issue 0x00680001)]
    s.fsm = .fault ∧ s.schedule = .host (.issue 0x00680001) :: [] ∧
    u.fsm = .fault ∧ u.schedule = .hostWhenReady (.issue 0x00680001) :: [] := by decide

/-- A step in `FAULT`, for OnlyResetLeavesFault. -/
theorem witness_step_in_fault :
    (ready.goto .fault).fsm = .fault ∧ step (ready.goto .fault) = .next (ready.goto .fault) :=
  ⟨rfl, rfl⟩

theorem witness_hostTurns :
    (ready.withSchedule [.host .reset]).schedule = .host .reset :: [] ∧
    (ready.withSchedule [.host (.read 0)]).schedule = .host (.read 0) :: [] ∧
    (ready.withSchedule [.host .initTransport]).schedule = .host .initTransport :: [] := by decide

/-- The clauses of HostReadsRegisters: each register, and each reason to refuse it; 3 is the least number
that is no register. -/
theorem witness_hostReads :
    (ready.fsm = .idle ∨ ready.fsm = .fault) ∧ { ready with resultValid := true }.resultValid = true ∧
    ready.cfgValid = true ∧
    ¬ ((ready.goto .wReg).fsm = .idle ∨ (ready.goto .wReg).fsm = .fault) ∧ 2 < 3 ∧
    ready.resultValid = false ∧ fresh.cfgValid = false := by decide

/-- A step from states that meet each invariant, for the invariants and CoherentStepNeverStops. -/
theorem witness_invariants :
    fresh.Coherent ∧ fresh.CountersBounded ∧ fresh.CauseFits ∧
    step (fresh.withSchedule [.host .initTransport]) = .next { fresh with xportReady := true } ∧
    (fresh.withSchedule [.host .initTransport]).Coherent := by
  refine ⟨?_, ?_, ?_, rfl, ?_⟩
  · intro h
    exact absurd h (by decide)
  · exact ⟨fun h => absurd h (by decide), fun h => absurd h (by decide)⟩
  · exact ⟨fun h => absurd h (by decide), fun h => absurd rfl h⟩
  · intro h
    exact absurd h (by decide)

/-- A running CLR meets the invariants too. -/
theorem witness_running :
    (clearing .cbLoop).Coherent ∧ { clearing .cbLoop with retries := 20 }.CountersBounded := by
  refine ⟨fun _ => ⟨.clr 18 19, by decide, ?_⟩, fun _ => by decide, fun h => absurd h (by decide)⟩
  exact ⟨by decide, by decide, rfl, rfl⟩

/-- Parameters with the values R9 gives, for ClrTerminates and StepKeepsCountersBounded. -/
theorem witness_hasStatedValues :
    vectorParams.HasStatedValues ∧ (clearing .cbInit).params.HasStatedValues ∧
    retriesLoaded .cbStrTest = true ∧ pollsLoaded .cbStrTest = true :=
  ⟨⟨rfl, rfl, rfl⟩, ⟨rfl, rfl, rfl⟩, rfl, rfl⟩

/-- The bound of R218 at the values R9 gives (R217). -/
theorem test_maxClrSteps : vectorParams.maxClrSteps = 1373 := by decide

/-- A block with other counts (93_implementation_defined.md item 17): they are what CLR loads. -/
theorem test_clr_loads_counts :
    let s := { clearing .cbChkSda with params := { vectorParams with nClockPulses := 3 } }
    field State.retries (exec (.clr 18 19) s) = some 3 ∧
    field State.retries (exec (.clr 18 19) (clearing .cbChkSda)) = some 20 := by decide

/-- The pins of `fresh` are all `INPUT`. -/
theorem modeOf_fresh (p : Byte) : fresh.modeOf p = .input := by
  simp [fresh, State.reset, State.modeOf]

/-- A state that meets LinesSafe, for StepKeepsLinesSafe and SafeLinesAreReleased. -/
theorem witness_linesSafe : fresh.LinesSafe := by
  refine ⟨fun h => absurd h (by decide), ?_, ?_, ?_⟩
  · intro x hx
    simp [fresh, State.reset, expectedModes] at hx
  · intro x hx
    simp [fresh, State.reset, expectedModes] at hx
  · intro p hp
    rw [modeOf_fresh] at hp
    cases hp

/-- A state about to sample SCL that meets LinesSafe. -/
theorem witness_linesSafe_sampling :
    (((clearing .cbChkScl).setMode 18 .inputPullup).setMode 19 .inputPullup).fsm = .cbChkScl ∧
    (((clearing .cbChkScl).setMode 18 .inputPullup).setMode 19 .inputPullup).modeOf 18 =
      .inputPullup ∧
    (((clearing .cbChkScl).setMode 18 .inputPullup).setMode 19 .inputPullup).modeOf 19 =
      .inputPullup := by decide

end Sys2Proof.Tests
end

namespace Sys2Proof

/-! ## The parameters' bounds (R9) -/

theorem Params.pinCount_pos (p : Params) : 1 ≤ p.pinCount := Nat.succ_pos _

theorem Params.pinCount_le (p : Params) : p.pinCount ≤ 256 := p.maxPin.isLt

/-- However far a short wait lies above its least value, it exceeds 5 µs. -/
theorem Config.lt_overFiveMicroseconds_add (beyond : Nat) :
    5000 < Config.overFiveMicroseconds + beyond := by
  unfold Config.overFiveMicroseconds
  omega

end Sys2Proof

namespace Sys2Proof.Machine

theorem State.reset_params_hasStatedValues : State.reset.params.HasStatedValues :=
  ⟨rfl, rfl, rfl⟩

/-- Settles O47: the fields hold what lies above a bound, so every value of them is within it. -/
theorem parametersWithinBounds : Obligations.ParametersWithinBounds :=
  ⟨fun p => ⟨p.pinCount_pos, p.pinCount_le, Config.lt_overFiveMicroseconds_add _,
    Config.lt_overFiveMicroseconds_add _, Config.lt_overFiveMicroseconds_add _⟩,
    State.reset_params_hasStatedValues⟩

/-! ## The parameters and the history after each operation

What the collaborators' primitives, fault entry and the rows of the state tables leave of `params` and add to
`history`. The other updates have these lemmas by `rfl`. -/

@[simp] theorem State.sample_params (s : State) (p : Byte) : (s.sample p).2.params = s.params := by
  rw [State.sample_state]

@[simp] theorem State.available_params (s : State) : s.available.2.params = s.params := by
  rw [State.available_state]

@[simp] theorem State.readByte_params (s : State) : s.readByte.2.params = s.params := by
  rw [State.readByte_state]

@[simp] theorem State.sample_history (s : State) (p : Byte) :
    (s.sample p).2.history = s.history ++ [.sample p (s.sample p).1] := by
  rw [State.sample_state]

@[simp] theorem State.available_history (s : State) :
    s.available.2.history = s.history ++ [.tAvail s.available.1] := by
  rw [State.available_state]

@[simp] theorem State.readByte_history (s : State) :
    s.readByte.2.history = s.history ++ [.tRead s.readByte.1] := by
  rw [State.readByte_state]

/-- Fault entry in the accept step records the fault and no primitive: no CLR runs, so no pin is released. -/
theorem State.raiseFault_history_of_idle (s : State) (c : FaultCause) (idle : s.fsm = .idle) :
    (s.raiseFault c).history = s.history ++ [.fault c] := by
  rw [State.raiseFault_of_not_clear s c (by rw [idle]; decide)]

@[simp] theorem acceptReserved_params (w : Word) (s : State) : (acceptReserved w s).params = s.params := by
  simp [acceptReserved]

@[simp] theorem started_params (i : Instr) (s : State) : (started i s).params = s.params := by
  cases i <;> rfl

@[simp] theorem pollStep_params (n : BitVec 3) (s : State) : (pollStep n s).params = s.params := by
  unfold pollStep
  split <;> simp

@[simp] theorem readStep_params (n : BitVec 3) (s : State) : (readStep n s).params = s.params := by
  simp [readStep]

@[simp] theorem deliver_params (op : Op) (v : Word) (s : State) : (deliver op v s).params = s.params := rfl

@[simp] theorem beginTransaction_params (s : State) : (beginTransaction s).params = s.params := rfl

@[simp] theorem handOver_params (s : State) : (handOver s).params = s.params := by
  unfold handOver
  split <;> rfl

@[simp] theorem checkScl_params (s : State) : (checkScl s).params = s.params := by
  unfold checkScl
  split <;> simp

@[simp] theorem checkSda_params (s : State) : (checkSda s).params = s.params := by
  simp [checkSda]

@[simp] theorem pulseLoop_params (s : State) : (pulseLoop s).params = s.params := by
  unfold pulseLoop
  split_ifs <;> rfl

@[simp] theorem stretchCheck_params (s : State) : (stretchCheck s).params = s.params := by
  simp [stretchCheck]

@[simp] theorem stretchTest_params (s : State) : (stretchTest s).params = s.params := by
  unfold stretchTest
  split_ifs <;> rfl

@[simp] theorem stretchSample_params (s : State) : (stretchSample s).params = s.params := by
  simp [stretchSample]

@[simp] theorem recheckSda_params (s : State) : (recheckSda s).params = s.params := by
  simp [recheckSda]

@[simp] theorem stopHold_params (s : State) : (stopHold s).params = s.params := rfl

@[simp] theorem reportStatus_params (s : State) : (reportStatus s).params = s.params := rfl

@[simp] theorem pollStep_history (n : BitVec 3) (s : State) :
    (pollStep n s).history = s.history ++ [.tAvail s.available.1] := by
  unfold pollStep
  split <;> simp

@[simp] theorem readStep_history (n : BitVec 3) (s : State) :
    (readStep n s).history = s.history ++ [.tRead s.readByte.1] := by
  simp [readStep]

@[simp] theorem checkScl_history (s : State) :
    (checkScl s).history = s.history ++ [.sample s.sclPin (s.sample s.sclPin).1] := by
  unfold checkScl
  split <;> simp

@[simp] theorem checkSda_history (s : State) :
    (checkSda s).history = s.history ++ [.sample s.sdaPin (s.sample s.sdaPin).1] := by
  simp [checkSda]

@[simp] theorem pulseLoop_history (s : State) : (pulseLoop s).history = s.history := by
  unfold pulseLoop
  split_ifs <;> rfl

@[simp] theorem stretchCheck_history (s : State) :
    (stretchCheck s).history = s.history ++ [.sample s.sclPin (s.sample s.sclPin).1] := by
  simp [stretchCheck]

@[simp] theorem stretchTest_history (s : State) : (stretchTest s).history = s.history := by
  unfold stretchTest
  split_ifs <;> rfl

@[simp] theorem stretchSample_history (s : State) :
    (stretchSample s).history = s.history ++ [.sample s.sclPin (s.sample s.sclPin).1] := by
  simp [stretchSample]

@[simp] theorem recheckSda_history (s : State) :
    (recheckSda s).history = s.history ++ [.sample s.sdaPin (s.sample s.sdaPin).1] := by
  simp [recheckSda]

/-! ## No step changes a parameter (R9) -/

section Parameters
variable {s t : State}

theorem WrStep.params_eq {reg val : Byte} (h : WrStep reg val s t) : t.params = s.params := by
  cases h <;> rfl

theorem ReadStep.params_eq {op : Op} {reg : Byte} {n : BitVec 3} {value : Word → Word}
    (h : ReadStep op reg n value s t) : t.params = s.params := by
  cases h <;> simp

theorem ClrStep.params_eq (h : ClrStep s t) : t.params = s.params := by
  cases h <;> simp

theorem RunningStep.params_eq {i : Instr} (h : RunningStep i s t) : t.params = s.params := by
  cases i with
  | cfg addr => exact h.elim
  | wr reg val => exact WrStep.params_eq h
  | rdu reg n => exact ReadStep.params_eq h
  | rds reg n => exact ReadStep.params_eq h
  | clr sda scl => exact ClrStep.params_eq h

theorem exec_params {i : Instr} (h : exec i s = .next t) : t.params = s.params := by
  cases exec_next_cases i s t h with
  | ignored _ eq => rw [eq]
  | rejected _ _ eq => simp [eq]
  | started _ _ eq => simp [eq]
  | running step => exact step.params_eq

end Parameters

/-- Settles O55, over the ways a step can move: a command's step, and the Host's turns. -/
theorem stepKeepsParameters : Obligations.StepKeepsParameters := by
  intro s t h
  cases step_next_cases s t h with
  | running i r _ _ runs => rw [exec_params runs, State.withSchedule_params]
  | accepted i w r _ _ _ runs => rw [exec_params runs, State.withSchedule_params]
  | quiet r _ eq => rw [eq, State.withSchedule_params]
  | concurrent w r _ _ eq => rw [eq, State.raiseFault_params, State.withSchedule_params]
  | reserved w r _ _ eq => rw [eq, acceptReserved_params, State.withSchedule_params]
  | read n v r _ eq => rw [eq]
  | init r _ _ eq => rw [eq]
  | reset r _ eq => rw [eq]; rfl

/-! ## What a command's step records (R2, R14, R221) -/

/-- The event of a command's outcome or of a fault (R58): no primitive of a port. -/
def Event.isOutcome : Event → Bool
  | .done _ _ | .fault _ => true
  | _ => false

/-- The primitives of the port a command may use: Pin I/O for CLR, the Transport for the others (R2, R221). -/
def ownPrimitive : Op → Event → Bool
  | .clr => Event.isPin
  | _ => Event.isTransport

section Recorded
variable {s t : State}

/-- What one step adds to the history: at most one primitive, of its own port, and then at most one outcome. -/
inductive Records (own : Event → Bool) (s t : State) : Prop where
  | nothing (eq : t.history = s.history)
  | primitive (e : Event) (eq : t.history = s.history ++ [e]) (isOwn : own e = true)
  | outcome (o : Event) (eq : t.history = s.history ++ [o]) (isOutcome : o.isOutcome = true)
  | primitiveThenOutcome (e o : Event) (eq : t.history = s.history ++ [e] ++ [o])
      (isOwn : own e = true) (isOutcome : o.isOutcome = true)

theorem Event.not_primitive_of_isOutcome {e : Event} (h : e.isOutcome = true) :
    e.isTransport = false ∧ e.isPin = false := by
  cases e <;> simp_all [Event.isOutcome, Event.isTransport, Event.isPin]

/-- No event is a primitive of both ports. -/
theorem Event.isTransport_eq_false_of_isPin {e : Event} (h : e.isPin = true) :
    e.isTransport = false := by
  cases e <;> simp_all [Event.isTransport, Event.isPin]

theorem Event.isPin_eq_false_of_isTransport {e : Event} (h : e.isTransport = true) :
    e.isPin = false := by
  cases e <;> simp_all [Event.isTransport, Event.isPin]

theorem ownPrimitive_of_ne_clr {op : Op} (h : op ≠ .clr) : ownPrimitive op = Event.isTransport := by
  cases op <;> simp_all [ownPrimitive]

/-- The events that a step records, as a list. -/
theorem Records.exists_events {own : Event → Bool} (h : Records own s t) :
    ∃ es : List Event, t.history = s.history ++ es ∧
      es.countP (fun e => e.isTransport || e.isPin) ≤ 1 ∧
      ∀ e ∈ es, own e = true ∨ e.isOutcome = true := by
  cases h with
  | nothing eq => exact ⟨[], by simp [eq], by simp, by simp⟩
  | primitive e eq isOwn => exact ⟨[e], eq, List.countP_le_length, by simp [isOwn]⟩
  | outcome o eq isOutcome => exact ⟨[o], eq, List.countP_le_length, by simp [isOutcome]⟩
  | primitiveThenOutcome e o eq isOwn isOutcome =>
    obtain ⟨noTransport, noPin⟩ := Event.not_primitive_of_isOutcome isOutcome
    have uncounted : [o].countP (fun e => e.isTransport || e.isPin) = 0 := by
      simp [noTransport, noPin]
    refine ⟨[e] ++ [o], by rw [eq, List.append_assoc], ?_, by simp [isOwn, isOutcome]⟩
    rw [List.countP_append, uncounted]
    exact List.countP_le_length

theorem WrStep.records {reg val : Byte} (h : WrStep reg val s t) :
    Records Event.isTransport s t := by
  cases h with
  | wBegin _ => exact .primitive _ rfl rfl
  | wReg _ => exact .primitive _ rfl rfl
  | wVal _ => exact .primitive _ rfl rfl
  | wEnd _ => exact .primitiveThenOutcome _ _ rfl rfl rfl

theorem ReadStep.records {op : Op} {reg : Byte} {n : BitVec 3} {value : Word → Word}
    (h : ReadStep op reg n value s t) : Records Event.isTransport s t := by
  cases h with
  | rBegin _ => exact .primitive _ rfl rfl
  | rReg _ => exact .primitive _ rfl rfl
  | rEnd _ => exact .primitive _ rfl rfl
  | rReq _ => exact .primitive _ rfl rfl
  | rPoll _ => exact .primitive _ (pollStep_history n s) rfl
  | rRead _ => exact .primitive _ (readStep_history n s) rfl
  | rDone _ => exact .outcome _ rfl rfl

theorem handOver_records (s : State) : Records Event.isPin s (handOver s) := by
  unfold handOver
  split
  · exact .primitive .ctrlOff rfl rfl
  · exact .nothing rfl

/-- CLR's steps: the samples, the internal steps, the hand-over and the last step; every other row of R185
is one mode or one wait. -/
theorem ClrStep.records (h : ClrStep s t) : Records Event.isPin s t := by
  cases h
  case cbInit => exact handOver_records s
  case cbChkScl => exact .primitive _ (checkScl_history s) rfl
  case cbChkSda => exact .primitive _ (checkSda_history s) rfl
  case cbStrChk => exact .primitive _ (stretchCheck_history s) rfl
  case cbStrSample => exact .primitive _ (stretchSample_history s) rfl
  case cbRecheckSda => exact .primitive _ (recheckSda_history s) rfl
  case cbLoop => exact .nothing (pulseLoop_history s)
  case cbStrTest => exact .nothing (stretchTest_history s)
  case cbFinScl => exact .primitiveThenOutcome _ _ rfl rfl rfl
  all_goals exact .primitive _ rfl rfl

theorem RunningStep.records {i : Instr} (h : RunningStep i s t) : Records (ownPrimitive i.op) s t := by
  cases i with
  | cfg addr => exact h.elim
  | wr reg val => exact WrStep.records h
  | rdu reg n => exact ReadStep.records h
  | rds reg n => exact ReadStep.records h
  | clr sda scl => exact ClrStep.records h

/-- Starting a command records nothing, but CFG completes there (R146). -/
theorem started_records (own : Event → Bool) (i : Instr) (s : State) (w : Word) :
    Records own s (started i (s.latch w)) := by
  cases i with
  | cfg addr => exact .outcome (.done .cfg none) rfl rfl
  | wr reg val => exact .nothing rfl
  | rdu reg n => exact .nothing rfl
  | rds reg n => exact .nothing rfl
  | clr sda scl => exact .nothing rfl

theorem exec_records {i : Instr} (h : exec i s = .next t) : Records (ownPrimitive i.op) s t := by
  cases exec_next_cases i s t h with
  | ignored _ eq => exact .nothing (by rw [eq])
  | rejected idle _ eq =>
    exact .outcome (.fault (firstFailingCheck i s))
      (by rw [eq, State.raiseFault_history_of_idle (s.latch (encode i)) _ idle, State.latch_history]) rfl
  | started _ _ eq => exact eq ▸ started_records _ i s (encode i)
  | running step => exact step.records

end Recorded

/-- Settles O38: a step records at most one primitive, of the command's own port, and an outcome. -/
theorem onePrimitivePerStep : Obligations.OnePrimitivePerStep := by
  intro i s t h
  obtain ⟨es, appended, counted, ownOrOutcome⟩ := (exec_records h).exists_events
  refine ⟨es, appended, counted, fun clr e he => ?_, fun notClr e he => ?_⟩
  · rw [clr] at ownOrOutcome
    cases ownOrOutcome e he with
    | inl pin => exact Event.isTransport_eq_false_of_isPin pin
    | inr outcome => exact (Event.not_primitive_of_isOutcome outcome).1
  · rw [ownPrimitive_of_ne_clr notClr] at ownOrOutcome
    cases ownOrOutcome e he with
    | inl transport => exact Event.isPin_eq_false_of_isTransport transport
    | inr outcome => exact (Event.not_primitive_of_isOutcome outcome).2

/-! ## Where a step answers (R14, R257) -/

section Answers
variable {s : State}

theorem accept_answers (i : Instr) (start : State → State) (s : State) :
    ∃ t, accept i start s = .next t := by
  obtain ⟨_, he⟩ | ⟨_, he⟩ := accept_cases i start s
  · exact ⟨_, he⟩
  · exact ⟨_, he⟩

/-- The sequencer is at rest or in a state of the command, so the command's step has a row for it (R32). -/
def State.HasRowFor (s : State) (i : Instr) : Prop :=
  s.fsm.family = .quiet ∨ s.fsm.family = instrFamily i

theorem execCfg_answers (addr : Byte) (h : s.HasRowFor (.cfg addr)) :
    ∃ t, execCfg addr s = .next t := by
  unfold execCfg
  split
  case h_1 => exact accept_answers _ _ s
  case h_2 => exact ⟨_, rfl⟩
  case h_3 =>
    cases hf : s.fsm <;> simp_all [State.HasRowFor, instrFamily, Fsm.family]

theorem execWr_answers (reg val : Byte) (h : s.HasRowFor (.wr reg val)) :
    ∃ t, execWr reg val s = .next t := by
  unfold execWr
  split
  case h_1 => exact accept_answers _ _ s
  case h_7 =>
    cases hf : s.fsm <;> simp_all [State.HasRowFor, instrFamily, Fsm.family]
  all_goals exact ⟨_, rfl⟩

theorem readCommand_answers (i : Instr) (reg : Byte) (n : BitVec 3) (value : Word → Word)
    (h : s.fsm.family = .quiet ∨ s.fsm.family = .read) :
    ∃ t, readCommand i reg n value s = .next t := by
  unfold readCommand
  split
  case h_1 => exact accept_answers _ _ s
  case h_10 =>
    cases hf : s.fsm <;> simp_all [Fsm.family]
  all_goals exact ⟨_, rfl⟩

theorem execClr_answers (sda scl : Byte) (h : s.HasRowFor (.clr sda scl)) :
    ∃ t, execClr sda scl s = .next t := by
  unfold execClr
  split
  case h_1 => exact accept_answers _ _ s
  case h_25 =>
    cases hf : s.fsm <;> simp_all [State.HasRowFor, instrFamily, Fsm.family]
  all_goals exact ⟨_, rfl⟩

/-- A command's step answers a next state unless the sequencer is in a state of another command. -/
theorem exec_answers (i : Instr) (h : s.HasRowFor i) : ∃ t, exec i s = .next t := by
  cases i with
  | cfg addr => exact execCfg_answers addr h
  | wr reg val => exact execWr_answers reg val h
  | rdu reg n => exact readCommand_answers _ reg n _ h
  | rds reg n => exact readCommand_answers _ reg n _ h
  | clr sda scl => exact execClr_answers sda scl h

/-- An answer the spec gives: a next state, or the refusal of one of the two Host interactions that can be
refused (R52 to R57). -/
def Admitted (o : Answer) : Prop :=
  (∃ t, o = .next t) ∨ (∃ n, o = .refused (.registerRead n)) ∨ o = .refused .initTransport

theorem admitted_next (t : State) : Admitted (.next t) := .inl ⟨t, rfl⟩

theorem exec_admitted (i : Instr) (h : s.HasRowFor i) : Admitted (exec i s) :=
  .inl (exec_answers i h)

/-- In a coherent state the sequencer has a command to run and a row for it. -/
theorem sequencerTurn_admitted (h : s.Coherent) : Admitted (sequencerTurn s).answer := by
  obtain ⟨i, busy, word, turn⟩ | ⟨busy, turn⟩ | ⟨_, turn⟩ := sequencerTurn_cases s
  · obtain ⟨j, latched, family, _⟩ := h busy
    have same : j = i := Except.ok.inj (latched.symm.trans word)
    rw [turn]
    exact exec_admitted i (.inr (same ▸ family.symm))
  · obtain ⟨j, latched, _⟩ := h busy
    simp [sequencerTurn, busy, latched] at turn
  · rw [turn]
    exact admitted_next s

/-- The Host's turn starts a command in `IDLE` only, so no coherence is needed. -/
theorem hostTurn_admitted (a : HostAction) (s : State) : Admitted (hostTurn a s).answer := by
  cases a with
  | issue w =>
    simp only [hostTurn]
    obtain ⟨_, turn⟩ | ⟨_, turn⟩ | ⟨i, idle, _, turn⟩ | ⟨_, _, _, turn⟩ := hostIssue_cases w s
    · rw [turn]
      exact admitted_next _
    · rw [turn]
      exact admitted_next _
    · rw [turn]
      exact exec_admitted i (.inl (by rw [idle]; rfl))
    · rw [turn]
      exact admitted_next _
  | read n =>
    simp only [hostTurn, Plan.answer, hostRead]
    split
    · exact admitted_next _
    · exact .inr (.inl ⟨n, rfl⟩)
  | initTransport =>
    simp only [hostTurn, Plan.answer, hostInitTransport]
    split
    · exact admitted_next _
    · exact .inr (.inr rfl)
  | reset => exact admitted_next _

/-- Coherence does not depend on the schedule. -/
theorem State.coherent_withSchedule (s : State) (r : List Turn) :
    (s.withSchedule r).Coherent ↔ s.Coherent := Iff.rfl

end Answers

/-- Settles O49: the sequencer's turns by coherence, the Host's in any state. -/
theorem coherentStepNeverStops : Obligations.CoherentStepNeverStops := by
  intro s coherent
  rw [step_eq_answer]
  unfold nextTurn
  split
  · exact sequencerTurn_admitted coherent
  · exact sequencerTurn_admitted ((s.coherent_withSchedule _).mpr coherent)
  · exact hostTurn_admitted _ _
  · split
    · exact sequencerTurn_admitted coherent
    · exact hostTurn_admitted _ _

end Sys2Proof.Machine

namespace Sys2Proof

/-! ## The decoder undoes the encoder (R118) -/

/-- The word a command is latched as decodes to the command. -/
@[simp] theorem decode_encode (i : Instr) : decode (encode i) = .ok i := by
  cases i <;> simp [decode, encode, fixedFieldsHold, operandsOf]

end Sys2Proof

namespace Sys2Proof.Machine

/-! ## What the accept step has checked (R251) -/

theorem FaultCause.orElse_eq_noFault {first second : FaultCause} :
    first.orElse second = .noFault ↔ first = .noFault ∧ second = .noFault := by
  unfold FaultCause.orElse
  by_cases h : first = .noFault <;> simp [h]

/-- Checks 2 and 3 pass exactly for legal operands (R115). -/
theorem operandChecks_eq_noFault (p : Params) (i : Instr) :
    rangeCheck p i = .noFault ∧ pinConflictCheck i = .noFault ↔ i.wellFormed p = true := by
  cases i <;> simp [rangeCheck, pinConflictCheck, Instr.wellFormed]

/-- Checks 4 and 5 pass exactly for a command that needs no transport or finds it ready (R142). -/
theorem transportChecks_eq_noFault (i : Instr) (s : State) :
    configuredCheck i s = .noFault ∧ transportCheck i s = .noFault ↔
      (needsTransport i = true → s.cfgValid = true ∧ s.xportReady = true) := by
  cases h : needsTransport i <;> simp [configuredCheck, transportCheck, h]

theorem firstFailingCheck_eq_noFault (i : Instr) (s : State) :
    firstFailingCheck i s = .noFault ↔ i.wellFormed s.params = true ∧
      (needsTransport i = true → s.cfgValid = true ∧ s.xportReady = true) := by
  rw [← operandChecks_eq_noFault, ← transportChecks_eq_noFault, firstFailingCheck,
    FaultCause.orElse_eq_noFault, FaultCause.orElse_eq_noFault, FaultCause.orElse_eq_noFault, and_assoc]

/-! ## Which states a running command's step joins (R32) -/

theorem State.not_busy_of_idle {s : State} (h : s.fsm = .idle) : s.busy = false :=
  s.busy_eq_false.mpr (.inl h)

theorem State.not_busy_of_fault {s : State} (h : s.fsm = .fault) : s.busy = false :=
  s.busy_eq_false.mpr (.inr h)

theorem State.busy_of_family {s : State} (h : s.fsm.family ≠ .quiet) : s.busy = true :=
  bne_iff_ne.mpr h

section Family
variable {s t : State}

theorem pollStep_family (n : BitVec 3) (s : State) : (pollStep n s).fsm.family = .read := by
  unfold pollStep
  split <;> rfl

theorem readStep_fsm (n : BitVec 3) (s : State) :
    (readStep n s).fsm = if s.idx + 1 = n then .rDone else .rRead := rfl

theorem readStep_family (n : BitVec 3) (s : State) : (readStep n s).fsm.family = .read := by
  rw [readStep_fsm]
  split <;> rfl

theorem checkScl_family (s : State) : (checkScl s).fsm.family = .clear := by
  unfold checkScl
  split <;> rfl

theorem pulseLoop_family (s : State) : (pulseLoop s).fsm.family = .clear := by
  unfold pulseLoop
  split_ifs <;> rfl

theorem stretchTest_family (s : State) : (stretchTest s).fsm.family = .clear := by
  unfold stretchTest
  split_ifs <;> rfl

theorem WrStep.family {reg val : Byte} (h : WrStep reg val s t) :
    s.fsm.family = .write ∧ (t.fsm = .idle ∨ t.fsm.family = .write) := by
  cases h with
  | wBegin h => exact ⟨by rw [h]; rfl, .inr rfl⟩
  | wReg h => exact ⟨by rw [h]; rfl, .inr rfl⟩
  | wVal h => exact ⟨by rw [h]; rfl, .inr rfl⟩
  | wEnd h => exact ⟨by rw [h]; rfl, .inl rfl⟩

theorem ReadStep.family {op : Op} {reg : Byte} {n : BitVec 3} {value : Word → Word}
    (h : ReadStep op reg n value s t) :
    s.fsm.family = .read ∧ (t.fsm = .idle ∨ t.fsm.family = .read) := by
  cases h
  case rPoll h => exact ⟨by rw [h]; rfl, .inr (pollStep_family n s)⟩
  case rRead h => exact ⟨by rw [h]; rfl, .inr (readStep_family n s)⟩
  case rDone h => exact ⟨by rw [h]; rfl, .inl rfl⟩
  all_goals exact ⟨by simp [*, Fsm.family], .inr rfl⟩

theorem ClrStep.family (h : ClrStep s t) :
    s.fsm.family = .clear ∧ (t.fsm = .idle ∨ t.fsm.family = .clear) := by
  cases h
  case cbChkScl h => exact ⟨by rw [h]; rfl, .inr (checkScl_family s)⟩
  case cbLoop h => exact ⟨by rw [h]; rfl, .inr (pulseLoop_family s)⟩
  case cbStrTest h => exact ⟨by rw [h]; rfl, .inr (stretchTest_family s)⟩
  case cbFinScl h => exact ⟨by rw [h]; rfl, .inl rfl⟩
  all_goals exact ⟨by simp [*, Fsm.family], .inr rfl⟩

/-- A running command's step leaves the command's states only for `IDLE`. -/
theorem RunningStep.family {i : Instr} (h : RunningStep i s t) :
    s.fsm.family = instrFamily i ∧ (t.fsm = .idle ∨ t.fsm.family = instrFamily i) := by
  cases i with
  | cfg addr => exact h.elim
  | wr reg val => exact WrStep.family h
  | rdu reg n => exact ReadStep.family h
  | rds reg n => exact ReadStep.family h
  | clr sda scl => exact ClrStep.family h

theorem RunningStep.instrFamily_ne_quiet {i : Instr} (h : RunningStep i s t) :
    instrFamily i ≠ .quiet := by
  cases i with
  | cfg addr => exact h.elim
  | _ => exact Family.noConfusion

theorem RunningStep.busy {i : Instr} (h : RunningStep i s t) : s.busy = true :=
  State.busy_of_family (h.family.1 ▸ h.instrFamily_ne_quiet)

/-- A running command's step never faults: only the accept step and the Host's turns do (R241). -/
theorem RunningStep.fsm_ne_fault {i : Instr} (h : RunningStep i s t) : t.fsm ≠ .fault := by
  intro faulted
  obtain idle | family := h.family.2
  · rw [faulted] at idle
    cases idle
  · exact h.instrFamily_ne_quiet (by rw [← family, faulted]; rfl)

theorem started_fsm_ne_fault (i : Instr) (s : State) : (started i s).fsm ≠ .fault := by
  cases i <;> exact Fsm.noConfusion

end Family

/-! ## What a running command's step leaves unchanged -/

/-- The registers that only the accept step, fault entry and reset write (R34, R35, R49, R51). -/
structure Standing where
  cmd : Word
  devaddr : DevAddr
  cfgValid : Bool
  faultCause : FaultCause
  sdaPin : Byte
  sclPin : Byte

def State.standing (s : State) : Standing :=
  ⟨s.cmd, s.devaddr, s.cfgValid, s.faultCause, s.sdaPin, s.sclPin⟩

section Standing
variable {s t : State}

theorem State.sample_standing (s : State) (p : Byte) : (s.sample p).2.standing = s.standing := by
  rw [State.sample_state]
  rfl

theorem State.available_standing (s : State) : s.available.2.standing = s.standing := by
  rw [State.available_state]
  rfl

theorem State.readByte_standing (s : State) : s.readByte.2.standing = s.standing := by
  rw [State.readByte_state]
  rfl

theorem pollStep_standing (n : BitVec 3) (s : State) : (pollStep n s).standing = s.standing := by
  unfold pollStep
  split
  · exact s.available_standing
  · exact s.available_standing

theorem handOver_standing (s : State) : (handOver s).standing = s.standing := by
  unfold handOver
  split <;> rfl

theorem checkScl_standing (s : State) : (checkScl s).standing = s.standing := by
  unfold checkScl
  split
  · exact s.sample_standing s.sclPin
  · exact s.sample_standing s.sclPin

theorem pulseLoop_standing (s : State) : (pulseLoop s).standing = s.standing := by
  unfold pulseLoop
  split_ifs <;> rfl

theorem stretchTest_standing (s : State) : (stretchTest s).standing = s.standing := by
  unfold stretchTest
  split_ifs <;> rfl

theorem WrStep.standing_eq {reg val : Byte} (h : WrStep reg val s t) : t.standing = s.standing := by
  cases h <;> rfl

theorem ReadStep.standing_eq {op : Op} {reg : Byte} {n : BitVec 3} {value : Word → Word}
    (h : ReadStep op reg n value s t) : t.standing = s.standing := by
  cases h
  case rPoll => exact pollStep_standing n s
  case rRead => exact s.readByte_standing
  all_goals rfl

theorem ClrStep.standing_eq (h : ClrStep s t) : t.standing = s.standing := by
  cases h
  case cbInit => exact handOver_standing s
  case cbChkScl => exact checkScl_standing s
  case cbChkSda => exact s.sample_standing s.sdaPin
  case cbLoop => exact pulseLoop_standing s
  case cbStrChk => exact s.sample_standing s.sclPin
  case cbStrTest => exact stretchTest_standing s
  case cbStrSample => exact s.sample_standing s.sclPin
  case cbRecheckSda => exact s.sample_standing s.sdaPin
  all_goals rfl

theorem RunningStep.standing_eq {i : Instr} (h : RunningStep i s t) : t.standing = s.standing := by
  cases i with
  | cfg addr => exact h.elim
  | wr reg val => exact WrStep.standing_eq h
  | rdu reg n => exact ReadStep.standing_eq h
  | rds reg n => exact ReadStep.standing_eq h
  | clr sda scl => exact ClrStep.standing_eq h

theorem pollStep_xportReady (n : BitVec 3) (s : State) :
    (pollStep n s).xportReady = s.xportReady := by
  unfold pollStep
  split <;> simp [State.available_state]

theorem readStep_xportReady (n : BitVec 3) (s : State) :
    (readStep n s).xportReady = s.xportReady := by
  simp [readStep, State.readByte_state]

theorem WrStep.xportReady_eq {reg val : Byte} (h : WrStep reg val s t) :
    t.xportReady = s.xportReady := by
  cases h <;> rfl

theorem ReadStep.xportReady_eq {op : Op} {reg : Byte} {n : BitVec 3} {value : Word → Word}
    (h : ReadStep op reg n value s t) : t.xportReady = s.xportReady := by
  cases h
  case rPoll => exact pollStep_xportReady n s
  case rRead => exact readStep_xportReady n s
  all_goals rfl

end Standing

/-! ## Coherence (R32, R34, R111, R142) -/

section Coherence
variable {s t : State}

theorem State.coherent_of_not_busy (h : s.busy = false) : s.Coherent := fun busy =>
  Bool.noConfusion (h.symm.trans busy)

/-- Where no byte is about to be read and none has been read in full, nothing is asked of `idx`. -/
theorem State.idxFits_of_ne {n : BitVec 3} (notReading : s.fsm ≠ .rRead) (notDone : s.fsm ≠ .rDone) :
    s.IdxFits n :=
  ⟨fun h => absurd h notReading, fun h => absurd h notDone⟩

/-- The first byte comes with `idx` 0, below the `n` of a legal read (R152). -/
theorem pollStep_idxFits {n : BitVec 3} (legal : legalNumBytes n = true) :
    (pollStep n s).IdxFits n := by
  obtain ⟨positive, _⟩ : 1 ≤ n.toNat ∧ n.toNat ≤ 4 := by simpa [legalNumBytes] using legal
  unfold pollStep
  split
  · exact ⟨fun _ => positive, Fsm.noConfusion⟩
  · exact State.idxFits_of_ne Fsm.noConfusion Fsm.noConfusion

/-- A byte brings `idx` one nearer to `n` without wrapping, and the read is done when they meet (R155). -/
theorem readStep_idxFits {n : BitVec 3} (below : s.idx.toNat < n.toNat) :
    (readStep n s).IdxFits n := by
  have counted : (s.idx + 1).toNat = s.idx.toNat + 1 := by bv_omega
  unfold State.IdxFits
  rw [readStep_fsm]
  split
  · next last => exact ⟨Fsm.noConfusion, fun _ => last⟩
  · next more =>
    have apart : (s.idx + 1).toNat ≠ n.toNat := fun h => more (BitVec.eq_of_toNat_eq h)
    have less : (s.idx + 1).toNat < n.toNat := by omega
    exact ⟨fun _ => less, Fsm.noConfusion⟩

theorem ReadStep.idxFits {op : Op} {reg : Byte} {n : BitVec 3} {value : Word → Word}
    (h : ReadStep op reg n value s t) (legal : legalNumBytes n = true) (fits : s.IdxFits n) :
    t.IdxFits n := by
  cases h
  case rPoll => exact pollStep_idxFits legal
  case rRead h => exact readStep_idxFits (fits.1 h)
  all_goals exact State.idxFits_of_ne Fsm.noConfusion Fsm.noConfusion

/-- What the accept step checked for the running command still holds after its next step, unless the
command has ended. -/
theorem RunningStep.runs {i : Instr} (h : RunningStep i s t) (runs : s.Runs i)
    (family : t.fsm.family = instrFamily i) : t.Runs i := by
  obtain ⟨_, legal, checked⟩ := runs
  have cfgValid : t.cfgValid = s.cfgValid := congrArg Standing.cfgValid h.standing_eq
  refine ⟨family.symm, h.params_eq ▸ legal, ?_⟩
  cases i with
  | cfg addr => trivial
  | wr reg val =>
    obtain ⟨valid, ready⟩ := checked
    exact ⟨cfgValid.trans valid, (WrStep.xportReady_eq h).trans ready⟩
  | rdu reg n =>
    obtain ⟨valid, ready, fits⟩ := checked
    exact ⟨cfgValid.trans valid, (ReadStep.xportReady_eq h).trans ready, ReadStep.idxFits h legal fits⟩
  | rds reg n =>
    obtain ⟨valid, ready, fits⟩ := checked
    exact ⟨cfgValid.trans valid, (ReadStep.xportReady_eq h).trans ready, ReadStep.idxFits h legal fits⟩
  | clr sda scl =>
    obtain ⟨sdaPin, sclPin⟩ := checked
    exact ⟨(congrArg Standing.sdaPin h.standing_eq).trans sdaPin,
      (congrArg Standing.sclPin h.standing_eq).trans sclPin⟩

theorem RunningStep.coherent {i : Instr} (h : RunningStep i s t) (word : decode s.cmd = .ok i)
    (runs : s.Runs i) : t.Coherent := by
  obtain idle | family := h.family.2
  · exact State.coherent_of_not_busy (State.not_busy_of_idle idle)
  · have cmd : t.cmd = s.cmd := congrArg Standing.cmd h.standing_eq
    exact fun _ => ⟨i, cmd ▸ word, h.runs runs family⟩

/-- The accept step starts what it has checked. CFG has ended by then (R146). -/
theorem started_coherent {i : Instr} (passes : firstFailingCheck i s = .noFault) :
    (started i (s.latch (encode i))).Coherent := by
  obtain ⟨legal, ready⟩ := (firstFailingCheck_eq_noFault i s).mp passes
  intro busy
  cases i with
  | cfg addr => exact absurd busy Bool.noConfusion
  | wr reg val => exact ⟨_, decode_encode _, rfl, legal, ready rfl⟩
  | rdu reg n =>
    obtain ⟨valid, xport⟩ := ready rfl
    exact ⟨_, decode_encode _, rfl, legal, valid, xport,
      State.idxFits_of_ne Fsm.noConfusion Fsm.noConfusion⟩
  | rds reg n =>
    obtain ⟨valid, xport⟩ := ready rfl
    exact ⟨_, decode_encode _, rfl, legal, valid, xport,
      State.idxFits_of_ne Fsm.noConfusion Fsm.noConfusion⟩
  | clr sda scl => exact ⟨_, decode_encode _, rfl, legal, rfl, rfl⟩

/-- A command's step keeps coherence if the command is the one that runs, where one runs. -/
theorem exec_coherent {i : Instr} (h : exec i s = .next t)
    (current : s.busy = true → decode s.cmd = .ok i ∧ s.Runs i) : t.Coherent := by
  cases exec_next_cases i s t h with
  | ignored faulted eq => exact eq ▸ State.coherent_of_not_busy (State.not_busy_of_fault faulted)
  | rejected _ _ eq => exact eq ▸ State.coherent_of_not_busy rfl
  | started _ passes eq => exact eq ▸ started_coherent passes
  | running step =>
    obtain ⟨word, runs⟩ := current step.busy
    exact step.coherent word runs

end Coherence

/-- Settles O48: the running command's step keeps what its accept step checked; every other turn starts a
checked command, or leaves the block at rest, or leaves the latched word and the checked registers alone. -/
theorem stepKeepsCoherence : Obligations.StepKeepsCoherence := by
  intro s t coherent h
  cases step_next_cases s t h with
  | running i r busy word runs =>
    obtain ⟨j, latched, checked⟩ := coherent busy
    have same : j = i := Except.ok.inj (latched.symm.trans word)
    exact exec_coherent runs fun _ => ⟨word, same ▸ checked⟩
  | accepted i w r _ idle _ runs =>
    exact exec_coherent runs fun busy => absurd idle ((State.busy_eq_true _).mp busy).1
  | quiet r rest eq => exact eq ▸ State.coherent_of_not_busy rest
  | concurrent w r _ _ eq => exact eq ▸ State.coherent_of_not_busy rfl
  | reserved w r _ _ eq => exact eq ▸ State.coherent_of_not_busy rfl
  | read n v r _ eq => exact eq ▸ coherent
  | init r _ idle eq => exact eq ▸ State.coherent_of_not_busy (State.not_busy_of_idle idle)
  | reset r _ eq => exact eq ▸ State.coherent_of_not_busy rfl

end Sys2Proof.Machine

namespace Sys2Proof.Machine

/-! ## The address (R35) -/

section Address
variable {s t : State}

/-- The device address and its valid bit are the same in both states. -/
def SameAddress (s t : State) : Prop := t.devaddr = s.devaddr ∧ t.cfgValid = s.cfgValid

theorem raiseFault_sameAddress (s : State) (c : FaultCause) : SameAddress s (s.raiseFault c) := by
  rw [State.raiseFault_state]
  exact ⟨rfl, rfl⟩

theorem started_sameAddress {i : Instr} (notCfg : i.op ≠ .cfg) (w : Word) :
    SameAddress s (started i (s.latch w)) := by
  cases i with
  | cfg addr => exact absurd rfl notCfg
  | _ => exact ⟨rfl, rfl⟩

theorem RunningStep.sameAddress {i : Instr} (h : RunningStep i s t) : SameAddress s t :=
  ⟨congrArg Standing.devaddr h.standing_eq, congrArg Standing.cfgValid h.standing_eq⟩

/-- A command's step keeps the address unless it is the accept step of a CFG. -/
theorem exec_sameAddress {i : Instr} (h : exec i s = .next t)
    (notCfgAccept : s.fsm = .idle → i.op ≠ .cfg) : SameAddress s t := by
  cases exec_next_cases i s t h with
  | ignored _ eq => exact eq ▸ ⟨rfl, rfl⟩
  | rejected _ _ eq => exact eq ▸ raiseFault_sameAddress (s.latch (encode i)) _
  | started idle _ eq => exact eq ▸ started_sameAddress (notCfgAccept idle) _
  | running step => exact step.sameAddress

theorem Instr.eq_cfg_of_op {i : Instr} (h : i.op = .cfg) : ∃ addr, i = .cfg addr := by
  cases i with
  | cfg addr => exact ⟨addr, rfl⟩
  | _ => cases h

/-- The first turn is the Host's, at once or after a wait. -/
theorem State.hostMoves.schedule_eq {a : HostAction} {r : List Turn} (h : s.hostMoves a r) :
    s.schedule = .host a :: r ∨ s.schedule = .hostWhenReady a :: r :=
  Or.imp_right And.right h

end Address

/-- Settles O37: of the ways a step can move, only the accept step of a CFG and a reset do not keep the
address. -/
theorem onlyCfgChangesTheAddress : Obligations.OnlyCfgChangesTheAddress := by
  intro s t h changed
  have notSame : ¬ SameAddress s t := fun same => changed.elim (· same.1) (· same.2)
  cases step_next_cases s t h with
  | running i r busy _ runs =>
    have notIdle : s.fsm ≠ .idle := (s.busy_eq_true.mp busy).1
    exact absurd (exec_sameAddress (s := s.withSchedule r) runs fun idle => absurd idle notIdle) notSame
  | accepted i w r turn idle word runs =>
    have isCfg : i.op = .cfg := by
      by_contra notCfg
      exact notSame (exec_sameAddress (s := s.withSchedule r) runs fun _ => notCfg)
    obtain ⟨addr, rfl⟩ := Instr.eq_cfg_of_op isCfg
    exact ⟨r, .inl ⟨w, addr, word, idle, turn.schedule_eq⟩⟩
  | quiet r _ eq => exact absurd (eq ▸ ⟨rfl, rfl⟩) notSame
  | concurrent w r _ _ eq => exact absurd (eq ▸ raiseFault_sameAddress (s.withSchedule r) _) notSame
  | reserved w r _ _ eq =>
    exact absurd (eq ▸ raiseFault_sameAddress ((s.withSchedule r).latch w) _) notSame
  | read n v r _ eq => exact absurd (eq ▸ ⟨rfl, rfl⟩) notSame
  | init r _ _ eq => exact absurd (eq ▸ ⟨rfl, rfl⟩) notSame
  | reset r turn _ => exact ⟨r, .inr turn.schedule_eq⟩

/-! ## The fault cause (R51, R242) -/

section Cause
variable {s t : State}

theorem raiseFault_causeFits (s : State) {c : FaultCause} (named : c ≠ .noFault) :
    (s.raiseFault c).CauseFits :=
  ⟨fun _ => named, fun _ => rfl⟩

/-- A step from one state outside `FAULT` to another keeps a fitting cause if it does not write it. -/
theorem State.CauseFits.of_ne_fault (fits : s.CauseFits) (before : s.fsm ≠ .fault)
    (after : t.fsm ≠ .fault) (cause : t.faultCause = s.faultCause) : t.CauseFits := by
  have noCause : ¬ s.faultCause ≠ .noFault := fun h => before (fits.mpr h)
  exact ⟨fun h => absurd h after, fun h => absurd (cause ▸ h) noCause⟩

theorem started_faultCause (i : Instr) (s : State) : (started i s).faultCause = s.faultCause := by
  cases i <;> rfl

theorem exec_causeFits {i : Instr} (h : exec i s = .next t) (fits : s.CauseFits) : t.CauseFits := by
  cases exec_next_cases i s t h with
  | ignored _ eq => exact eq ▸ fits
  | rejected _ fails eq => exact eq ▸ raiseFault_causeFits _ fails
  | started idle _ eq =>
    subst eq
    exact fits.of_ne_fault (by rw [idle]; decide) (started_fsm_ne_fault i _) (started_faultCause i _)
  | running step =>
    exact fits.of_ne_fault (s.busy_eq_true.mp step.busy).2 step.fsm_ne_fault
      (congrArg Standing.faultCause step.standing_eq)

end Cause

theorem State.causeFits_reset : State.reset.CauseFits :=
  ⟨Fsm.noConfusion, fun h => absurd rfl h⟩

/-- Settles O53: fault entry writes both, a reset clears both, and every other turn writes neither. -/
theorem stepKeepsCauseOfFault : Obligations.StepKeepsCauseOfFault := by
  intro s t fits h
  cases step_next_cases s t h with
  | running i r _ _ runs => exact exec_causeFits runs fits
  | accepted i w r _ _ _ runs => exact exec_causeFits runs fits
  | quiet r _ eq => exact eq ▸ fits
  | concurrent w r _ _ eq => exact eq ▸ raiseFault_causeFits _ FaultCause.noConfusion
  | reserved w r _ _ eq => exact eq ▸ raiseFault_causeFits _ FaultCause.noConfusion
  | read n v r _ eq => exact eq ▸ fits
  | init r _ _ eq => exact eq ▸ fits
  | reset r _ eq => exact eq ▸ State.causeFits_reset

/-! ## The counters of CLR (R46, R193, R199) -/

section Counters
variable {s t : State}

@[simp] theorem State.sample_retries (s : State) (p : Byte) : (s.sample p).2.retries = s.retries := by
  rw [State.sample_state]

@[simp] theorem State.sample_polls (s : State) (p : Byte) : (s.sample p).2.polls = s.polls := by
  rw [State.sample_state]

/-- `polls` is loaded within a pulse, where `retries` is. -/
theorem retriesLoaded_of_pollsLoaded {f : Fsm} (h : pollsLoaded f = true) : retriesLoaded f = true := by
  revert h
  cases f <;> decide

/-- Where `retries` is not loaded, no counter is. -/
theorem State.countersBounded_of_unloaded (h : retriesLoaded s.fsm = false) : s.CountersBounded :=
  ⟨fun loaded => Bool.noConfusion (h.symm.trans loaded),
    fun loaded => Bool.noConfusion (h.symm.trans (retriesLoaded_of_pollsLoaded loaded))⟩

/-- Only CLR loads the counters. -/
theorem retriesLoaded_eq_false_of_family {f : Fsm} (h : f.family ≠ .clear) :
    retriesLoaded f = false := by
  revert h
  cases f <;> decide

/-- A step that changes no counter keeps the bounds if it goes where no further counter is loaded. -/
theorem State.CountersBounded.of_counters_eq (bounded : s.CountersBounded) (params : t.params = s.params)
    (retries : t.retries = s.retries) (polls : t.polls = s.polls)
    (retriesStay : retriesLoaded t.fsm = true → retriesLoaded s.fsm = true)
    (pollsStay : pollsLoaded t.fsm = true → pollsLoaded s.fsm = true) : t.CountersBounded := by
  obtain ⟨retriesBound, pollsBound⟩ := bounded
  unfold State.CountersBounded
  rw [params, retries, polls]
  exact ⟨retriesBound ∘ retriesStay, pollsBound ∘ pollsStay⟩

/-- Counting down stays below a bound. -/
theorem toNat_sub_one_le {x : BitVec 5} {bound : Nat} (nonzero : x ≠ 0) (h : x.toNat ≤ bound) :
    (x - 1).toNat ≤ bound := by
  bv_omega

theorem checkScl_countersBounded (s : State) : (checkScl s).CountersBounded := by
  unfold checkScl
  split <;> exact State.countersBounded_of_unloaded rfl

theorem checkSda_countersBounded (s : State) : (checkSda s).CountersBounded :=
  ⟨fun _ => by simp [checkSda], Bool.noConfusion⟩

theorem pulseLoop_countersBounded (bound : s.retries.toNat ≤ s.params.nClockPulses.toNat) :
    (pulseLoop s).CountersBounded := by
  unfold pulseLoop
  split_ifs with sdaHigh spent
  · exact State.countersBounded_of_unloaded rfl
  · exact State.countersBounded_of_unloaded rfl
  · exact ⟨fun _ => toNat_sub_one_le spent bound, Bool.noConfusion⟩

theorem stretchCheck_countersBounded (bound : s.retries.toNat ≤ s.params.nClockPulses.toNat) :
    (stretchCheck s).CountersBounded :=
  ⟨fun _ => by simpa [stretchCheck] using bound, fun _ => by simp [stretchCheck]⟩

theorem stretchTest_countersBounded (retriesBound : s.retries.toNat ≤ s.params.nClockPulses.toNat)
    (pollsBound : s.polls.toNat ≤ s.params.nStretchPolls.toNat) :
    (stretchTest s).CountersBounded := by
  unfold stretchTest
  split_ifs with sclHigh spent
  · exact ⟨fun _ => retriesBound, Bool.noConfusion⟩
  · exact State.countersBounded_of_unloaded rfl
  · exact ⟨fun _ => retriesBound, fun _ => toNat_sub_one_le spent pollsBound⟩

theorem stretchSample_countersBounded (bounded : s.CountersBounded) (h : s.fsm = .cbStrSample) :
    (stretchSample s).CountersBounded :=
  bounded.of_counters_eq (stretchSample_params s) (s.sample_retries s.sclPin) (s.sample_polls s.sclPin)
    (fun _ => by rw [h]; rfl) (fun _ => by rw [h]; rfl)

theorem recheckSda_countersBounded (bounded : s.CountersBounded) (h : s.fsm = .cbRecheckSda) :
    (recheckSda s).CountersBounded :=
  bounded.of_counters_eq (recheckSda_params s) (s.sample_retries s.sdaPin) (s.sample_polls s.sdaPin)
    (fun _ => by rw [h]; rfl) Bool.noConfusion

/-- The rows of R185: each either loads, counts down or keeps a counter, or leads where none is loaded. -/
theorem ClrStep.countersBounded (h : ClrStep s t) (bounded : s.CountersBounded) :
    t.CountersBounded := by
  have ⟨retriesBound, pollsBound⟩ := bounded
  cases h
  case cbChkScl => exact checkScl_countersBounded s
  case cbChkSda => exact checkSda_countersBounded s
  case cbLoop h => exact pulseLoop_countersBounded (retriesBound (by rw [h]; rfl))
  case cbStrChk h => exact stretchCheck_countersBounded (retriesBound (by rw [h]; rfl))
  case cbStrTest h =>
    exact stretchTest_countersBounded (retriesBound (by rw [h]; rfl)) (pollsBound (by rw [h]; rfl))
  case cbStrSample h => exact stretchSample_countersBounded bounded h
  case cbRecheckSda h => exact recheckSda_countersBounded bounded h
  case cbPulseLow h | cbHoldLow h | cbPulseRel h | cbHoldHigh h =>
    exact bounded.of_counters_eq rfl rfl rfl (fun _ => by rw [h]; rfl) Bool.noConfusion
  case cbStrWait h =>
    exact bounded.of_counters_eq rfl rfl rfl (fun _ => by rw [h]; rfl) (fun _ => by rw [h]; rfl)
  all_goals exact State.countersBounded_of_unloaded rfl

theorem RunningStep.countersBounded {i : Instr} (h : RunningStep i s t) (bounded : s.CountersBounded) :
    t.CountersBounded := by
  by_cases clear : instrFamily i = .clear
  · cases i with
    | clr sda scl => exact ClrStep.countersBounded h bounded
    | _ => cases clear
  · have notClear : t.fsm.family ≠ .clear := by
      obtain idle | family := h.family.2
      · rw [idle]; decide
      · rwa [family]
    exact State.countersBounded_of_unloaded (retriesLoaded_eq_false_of_family notClear)

theorem started_countersBounded (i : Instr) (s : State) : (started i s).CountersBounded :=
  State.countersBounded_of_unloaded (by cases i <;> rfl)

theorem exec_countersBounded {i : Instr} (h : exec i s = .next t) (bounded : s.CountersBounded) :
    t.CountersBounded := by
  cases exec_next_cases i s t h with
  | ignored _ eq => exact eq ▸ bounded
  | rejected _ _ eq => exact eq ▸ State.countersBounded_of_unloaded rfl
  | started _ _ eq => exact eq ▸ started_countersBounded i _
  | running step => exact step.countersBounded bounded

theorem step_countersBounded (h : step s = .next t) (bounded : s.CountersBounded) :
    t.CountersBounded := by
  cases step_next_cases s t h with
  | running i r _ _ runs => exact exec_countersBounded runs bounded
  | accepted i w r _ _ _ runs => exact exec_countersBounded runs bounded
  | quiet r _ eq => exact eq ▸ bounded
  | concurrent w r _ _ eq => exact eq ▸ State.countersBounded_of_unloaded rfl
  | reserved w r _ _ eq => exact eq ▸ State.countersBounded_of_unloaded rfl
  | read n v r _ eq => exact eq ▸ bounded
  | init r _ _ eq => exact eq ▸ bounded
  | reset r _ eq => exact eq ▸ State.countersBounded_of_unloaded rfl

end Counters

/-- Settles O52: the counters are loaded with their bounds and then only counted down. -/
theorem stepKeepsCountersBounded : Obligations.StepKeepsCountersBounded := by
  refine ⟨fun s t bounded h => step_countersBounded h bounded, ?_⟩
  rintro s ⟨retriesBound, pollsBound⟩ ⟨pulses, polls, _⟩
  rw [pulses] at retriesBound
  rw [polls] at pollsBound
  exact ⟨retriesBound, pollsBound⟩

/-! ## The state after reset (R31, R282) -/

@[simp] theorem State.modeOf_reset (p : Byte) : State.reset.modeOf p = .input := by
  simp [State.reset, State.modeOf]

theorem State.linesSafe_reset : State.reset.LinesSafe := by
  refine ⟨Family.noConfusion, ?_, ?_, fun p driven => ?_⟩
  · exact fun x expected => absurd expected (Option.not_mem_none x)
  · exact fun x expected => absurd expected (Option.not_mem_none x)
  · rw [State.modeOf_reset] at driven
    cases driven

/-- Settles O54: in `IDLE` no command runs, no mode is expected, no counter is loaded and no fault is named. -/
theorem resetMeetsInvariants : Obligations.ResetMeetsInvariants :=
  ⟨State.coherent_of_not_busy rfl, State.linesSafe_reset, State.countersBounded_of_unloaded rfl,
    State.causeFits_reset⟩

/-- Settles O43: the table of R31, field by field, and what the Host sees of it. -/
theorem resetStateAsSpecified : Obligations.ResetStateAsSpecified :=
  ⟨rfl, rfl, rfl, rfl, rfl, State.modeOf_reset, rfl, rfl, rfl, rfl⟩

/-! ## The schedule (R34, R57; log entry 4) -/

section Schedule
variable {s : State}

theorem sequencerTurn_of_busy {i : Instr} (busy : s.busy = true) (word : decode s.cmd = .ok i) :
    sequencerTurn s = .run i s := by
  simp [sequencerTurn, busy, word]

theorem step_of_schedule_nil (h : s.schedule = []) : step s = (sequencerTurn s).answer := by
  rw [step_eq_answer, nextTurn, h]

theorem step_of_sequencer {rest : List Turn} (h : s.schedule = .sequencer :: rest) :
    step s = (sequencerTurn (s.withSchedule rest)).answer := by
  rw [step_eq_answer, nextTurn, h]

theorem step_of_host {a : HostAction} {rest : List Turn} (h : s.schedule = .host a :: rest) :
    step s = (hostTurn a (s.withSchedule rest)).answer := by
  rw [step_eq_answer, nextTurn, h]

/-- While a command runs, the Host waits and the sequencer moves. -/
theorem step_of_hostWhenReady_busy {a : HostAction} {rest : List Turn}
    (h : s.schedule = .hostWhenReady a :: rest) (busy : s.busy = true) :
    step s = (sequencerTurn s).answer := by
  rw [step_eq_answer, nextTurn, h]
  simp [busy]

/-- With no command running, the Host that waited acts. -/
theorem step_of_hostWhenReady_quiet {a : HostAction} {rest : List Turn}
    (h : s.schedule = .hostWhenReady a :: rest) (quiet : s.busy = false) :
    step s = (hostTurn a (s.withSchedule rest)).answer := by
  rw [step_eq_answer, nextTurn, h]
  simp [quiet]

end Schedule

/-- Settles O7: each of the three turns is the sequencer's, and the sequencer runs the latched word. -/
theorem stepRunsLatchedWord : Obligations.StepRunsLatchedWord := by
  intro s i notIdle notFault word
  have busy : s.busy = true := s.busy_eq_true.mpr ⟨notIdle, notFault⟩
  refine ⟨fun h => ?_, fun rest h => ?_, fun a rest h => ?_⟩
  · rw [step_of_schedule_nil h, sequencerTurn_of_busy busy word]
    rfl
  · rw [step_of_sequencer h, sequencerTurn_of_busy (s := s.withSchedule rest) busy word]
    rfl
  · rw [step_of_hostWhenReady_busy h busy, sequencerTurn_of_busy busy word]
    rfl

/-- Settles O8: both turns are the Host's in the same state. -/
theorem hostActsOnceReady : Obligations.HostActsOnceReady := by
  intro s a rest quiet h
  rw [step_of_hostWhenReady_quiet h (s.busy_eq_false.mpr quiet),
    step_of_host (s := s.withSchedule (.host a :: rest)) rfl]
  rfl

/-! ## The collaborators' answers (R37, R42) -/

theorem State.drawCount_answer (s : State) :
    s.drawCount.1 = s.countAnswers.headD (Config.freeCount s.freeDraws) := by
  unfold State.drawCount
  split <;> simp [*]

theorem State.drawByte_answer (s : State) :
    s.drawByte.1 = s.byteAnswers.headD (Config.freeByte s.freeDraws) := by
  unfold State.drawByte
  split <;> simp [*]

theorem State.drawLevel_answer (s : State) :
    s.drawLevel.1 = s.levelAnswers.headD (Config.freeLevel s.freeDraws) := by
  unfold State.drawLevel
  split <;> simp [*]

/-- A sample is LOW on a driven pin, and else the Environment's answer (R42). -/
theorem State.sample_answer (s : State) (p : Byte) :
    (s.sample p).1 = if s.modeOf p = .output then .low
      else s.levelAnswers.headD (Config.freeLevel s.freeDraws) := by
  rw [← State.drawLevel_answer]
  rfl

/-- Settles O19: each primitive's answer is its draw's, and its state is said in `Laws/Ops`. -/
theorem collaboratorsAnswer : Obligations.CollaboratorsAnswer := fun s p =>
  ⟨⟨s.available_state, s.drawCount_answer⟩, ⟨s.readByte_state, s.drawByte_answer⟩,
    s.sample_state p, s.sample_answer p⟩

/-! ## What the Host reads and does (R52 to R57) -/

section HostTurns
variable {s : State}

theorem State.hostRegister_busy (n : Nat) (busy : s.busy = true) : s.hostRegister n = none := by
  simp [State.hostRegister, busy]

theorem State.hostRegister_status (quiet : s.busy = false) :
    s.hostRegister 0 = some s.statusWord := by
  simp [State.hostRegister, quiet]

theorem State.hostRegister_result (quiet : s.busy = false) :
    s.hostRegister 1 = if s.resultValid then some s.result else none := by
  simp [State.hostRegister, quiet]

theorem State.hostRegister_devaddr (quiet : s.busy = false) :
    s.hostRegister 2 = if s.cfgValid then some (s.devaddr.setWidth 32) else none := by
  simp [State.hostRegister, quiet]

theorem State.hostRegister_other {n : Nat} (h : 2 < n) : s.hostRegister n = none := by
  obtain ⟨m, rfl⟩ : ∃ m, n = m + 3 := ⟨n - 3, by omega⟩
  simp [State.hostRegister]

/-- A read is refused while a command runs, of no register, and of one whose value is not valid. -/
theorem State.hostRegister_eq_none {n : Nat}
    (h : s.busy = true ∨ 2 < n ∨ (n = 1 ∧ s.resultValid = false) ∨ (n = 2 ∧ s.cfgValid = false)) :
    s.hostRegister n = none := by
  cases busy : s.busy with
  | true => exact State.hostRegister_busy n busy
  | false =>
    obtain running | other | ⟨rfl, invalid⟩ | ⟨rfl, invalid⟩ := h
    · exact Bool.noConfusion (busy.symm.trans running)
    · exact State.hostRegister_other other
    · simp [State.hostRegister_result busy, invalid]
    · simp [State.hostRegister_devaddr busy, invalid]

theorem step_read_answered {n : Nat} {v : Word} {rest : List Turn}
    (h : s.schedule = .host (.read n) :: rest) (answer : s.hostRegister n = some v) :
    step s = .next { s with schedule := rest, reads := s.reads ++ [(n, v)] } := by
  have same : (s.withSchedule rest).hostRegister n = some v := answer
  simp only [step_of_host h, hostTurn, Plan.answer, hostRead, same]
  rfl

theorem step_read_refused {n : Nat} {rest : List Turn}
    (h : s.schedule = .host (.read n) :: rest) (answer : s.hostRegister n = none) :
    step s = .refused (.registerRead n) := by
  have same : (s.withSchedule rest).hostRegister n = none := answer
  simp only [step_of_host h, hostTurn, Plan.answer, hostRead, same]

end HostTurns

/-- Settles O45: a read answers what the register file gives, and is refused where it gives nothing. -/
theorem hostReadsRegisters : Obligations.HostReadsRegisters := by
  intro s n rest h
  refine ⟨fun quiet number => ?_, fun quiet number valid => ?_, fun quiet number valid => ?_,
    fun refusal => ?_⟩
  · subst number
    exact step_read_answered h (State.hostRegister_status (s.busy_eq_false.mpr quiet))
  · subst number
    exact step_read_answered h
      (by rw [State.hostRegister_result (s.busy_eq_false.mpr quiet), if_pos valid])
  · subst number
    exact step_read_answered h
      (by rw [State.hostRegister_devaddr (s.busy_eq_false.mpr quiet), if_pos valid])
  · refine step_read_refused h (State.hostRegister_eq_none (refusal.imp_left fun running => ?_))
    exact s.busy_eq_true.mpr (not_or.mp running)

/-- Settles O46: the turn is the Host's, and `InitTransport` looks at `fsm` only. -/
theorem initTransportWhenIdle : Obligations.InitTransportWhenIdle := by
  intro s rest h
  have turn : step s = hostInitTransport (s.withSchedule rest) := step_of_host h
  rw [turn, hostInitTransport, State.withSchedule_fsm]
  exact ⟨fun idle => if_pos idle, fun notIdle => if_neg notIdle⟩

/-! ## The fields of STATUS (R53, R33, R240) -/

/-- A flag appended below a word is its lowest bit. -/
theorem getLsbD_append_ofBool_zero {w : Nat} (x : BitVec w) (b : Bool) :
    (x ++ BitVec.ofBool b).getLsbD 0 = b := by
  simp [BitVec.getLsbD_append, -BitVec.getLsbD_eq_getElem]

/-- A flag appended below a word moves the word's bits up by one. -/
theorem getLsbD_append_ofBool_succ {w : Nat} (x : BitVec w) (b : Bool) (k : Nat) :
    (x ++ BitVec.ofBool b).getLsbD (k + 1) = x.getLsbD k := by
  simp [BitVec.getLsbD_append]

section Status
variable (s : State)

theorem State.busy_eq_decide : s.busy = decide (s.fsm ≠ .idle ∧ s.fsm ≠ .fault) := by
  rw [Bool.eq_iff_iff, State.busy_eq_true, decide_eq_true_iff]

/-- Bits 0 to 4 of STATUS are the five flags (R53). -/
theorem State.statusWord_flags :
    s.statusWord.getLsbD 0 = s.busy ∧ s.statusWord.getLsbD 1 = s.faulted ∧
      s.statusWord.getLsbD 2 = s.cfgValid ∧ s.statusWord.getLsbD 3 = s.resultValid ∧
      s.statusWord.getLsbD 4 = s.xportReady := by
  simp only [State.statusWord, getLsbD_append_ofBool_zero, getLsbD_append_ofBool_succ, and_self]

/-- Above the flags, STATUS holds the code of the cause at bit 8 and nothing else (R53). -/
theorem State.statusWord_getLsbD_above (k : Nat) :
    s.statusWord.getLsbD (k + 5) = (decide (3 ≤ k) && s.faultCause.code.getLsbD (k - 3)) := by
  have upper : s.statusWord.getLsbD (k + 5) = (0#20 ++ s.faultCause.code ++ 0#3).getLsbD k := by
    simp only [State.statusWord, getLsbD_append_ofBool_succ]
  rw [upper, BitVec.getLsbD_append, BitVec.getLsbD_append]
  by_cases low : k < 3
  · simp [low]
  · have above : 3 ≤ k := not_lt.mp low
    by_cases high : k - 3 < 4
    · simp [low, high, above]
    · simp [low, high, BitVec.getLsbD_of_ge _ _ (not_lt.mp high)]

/-- Bits 11:8 of STATUS are the code of the cause (R53). -/
theorem State.statusWord_cause : s.statusWord.extractLsb' 8 4 = s.faultCause.code := by
  ext k hk
  rw [BitVec.getElem_extractLsb', show 8 + k = (3 + k) + 5 by omega, s.statusWord_getLsbD_above]
  simp [hk]

/-- Bits 7:5 of STATUS are 0 (R53). -/
theorem State.statusWord_zeros_below : s.statusWord.extractLsb' 5 3 = 0 := by
  ext k hk
  rw [BitVec.getElem_extractLsb', Nat.add_comm, s.statusWord_getLsbD_above]
  simp [hk]

/-- Bits 31:12 of STATUS are 0 (R53). -/
theorem State.statusWord_zeros_above : s.statusWord.extractLsb' 12 20 = 0 := by
  ext k hk
  rw [BitVec.getElem_extractLsb', show 12 + k = (7 + k) + 5 by omega, s.statusWord_getLsbD_above,
    BitVec.getLsbD_of_ge _ _ (by omega)]
  simp

end Status

/-- Settles O44: the flags bit by bit, and the code of each cause. -/
theorem statusFields : Obligations.StatusFields := by
  intro s
  have code : (s.faultCause.code, s.faultCause) ∈
      [(0#4, FaultCause.noFault), (1#4, .illegalCommand), (2#4, .numBytesRange), (3#4, .addrRange),
       (4#4, .pinRange), (5#4, .pinConflict), (6#4, .notConfigured), (7#4, .transportDisabled),
       (8#4, .concurrentUse)] := by
    cases s.faultCause <;> decide
  rw [← State.busy_eq_decide, s.statusWord_cause]
  obtain ⟨busy, faulted, cfgValid, resultValid, xportReady⟩ := s.statusWord_flags
  exact ⟨busy, faulted, cfgValid, resultValid, xportReady, s.statusWord_zeros_below, code,
    s.statusWord_zeros_above⟩

end Sys2Proof.Machine

namespace Sys2Proof

/-! ## The decoder and the formats (R114, R117, R118) -/

/-- Settles O1: the fields of a packed word are the fields it was packed from. -/
theorem decodeOfEncode : Obligations.DecodeOfEncode := decode_encode

/-- A word decodes to a command exactly when its opcode and its fixed fields are the format's and the
command's operands are the word's operand fields (R114, R116). -/
theorem decode_eq_ok_iff (w : Word) (i : Instr) :
    decode w = .ok i ↔
      ∃ op : Op, opField w = op.code ∧ fixedFieldsHold op w = true ∧ operandsOf op w = i := by
  simp only [← Op.ofCode_eq_some]
  unfold decode
  cases Op.ofCode (opField w) with
  | none => simp
  | some op => by_cases fixed : fixedFieldsHold op w = true <;> simp [fixed]

/-- Every format has a clear reserved bit (R114). -/
theorem rsvField_of_fixedFieldsHold {op : Op} {w : Word} (h : fixedFieldsHold op w = true) :
    rsvField w = 0 := by
  cases op <;> simp_all [fixedFieldsHold]

/-- The encoder puts the operands of a word that has a format back into that word. -/
theorem encode_operandsOf {op : Op} {w : Word} (code : opField w = op.code)
    (fixed : fixedFieldsHold op w = true) : encode (operandsOf op w) = w := by
  conv_rhs => rw [eq_packWord_of_rsv w (rsvField_of_fixedFieldsHold fixed), code]
  cases op <;> simp_all [fixedFieldsHold, operandsOf, encode]

theorem encode_of_decode {w : Word} {i : Instr} (h : decode w = .ok i) : encode i = w := by
  obtain ⟨op, code, fixed, rfl⟩ := (decode_eq_ok_iff w i).mp h
  exact encode_operandsOf code fixed

/-- Settles O2: the word's fields are the command's operands and its format's fixed fields, and they are
the whole word. -/
theorem encodeOfDecode : Obligations.EncodeOfDecode := fun _ _ => encode_of_decode

@[simp] theorem op_operandsOf (op : Op) (w : Word) : (operandsOf op w).op = op := by
  cases op <;> rfl

/-- A word that decodes to a command decodes to the operands of that command's format. -/
theorem operandsOf_op_of_decode {w : Word} {i : Instr} (h : decode w = .ok i) :
    operandsOf i.op w = i := by
  obtain ⟨op, _, _, rfl⟩ := (decode_eq_ok_iff w i).mp h
  rw [op_operandsOf]

/-- The word of a command has its format's mask and match (R114). -/
theorem encode_matchesFormat (i : Instr) : Laws.MatchesFormat.Statement i := by
  cases i with
  | cfg addr => exact Laws.MatchesFormat.cfg addr
  | wr reg val => exact Laws.MatchesFormat.wr reg val
  | rdu reg nb => exact Laws.MatchesFormat.rdu reg nb
  | rds reg nb => exact Laws.MatchesFormat.rds reg nb
  | clr sda scl => exact Laws.MatchesFormat.clr sda scl

/-- A field that a mask covers in full is the field of the match value. -/
theorem extractLsb'_of_masked {w mask pattern : Word} (h : w &&& mask = pattern) (start len : Nat)
    (covered : mask.extractLsb' start len = BitVec.allOnes len) :
    w.extractLsb' start len = pattern.extractLsb' start len := by
  rw [← h, BitVec.extractLsb'_and, covered, BitVec.and_allOnes]

/-- Every mask covers the opcode, and every match value holds its command's (R113, R114). -/
theorem opField_of_masked {op : Op} {w : Word} (h : w &&& op.mask = op.pattern) :
    opField w = op.code := by
  have field : opField w = opField op.pattern :=
    extractLsb'_of_masked h 0 4 (by cases op <;> decide)
  rw [field]
  cases op <;> decide

/-- A mask covers its format's fixed fields, and the match value holds 0 in them (R114). -/
theorem fixedFieldsHold_of_masked {op : Op} {w : Word} (h : w &&& op.mask = op.pattern) :
    fixedFieldsHold op w = true := by
  have rsv : rsvField w = rsvField op.pattern :=
    extractLsb'_of_masked h 7 1 (by cases op <;> decide)
  have nb := extractLsb'_of_masked h 4 3
  have reg := extractLsb'_of_masked h 8 8
  have b2 := extractLsb'_of_masked h 16 8
  have b3 := extractLsb'_of_masked h 24 8
  cases op with
  | cfg =>
    simp only [fixedFieldsHold, rsv, nbField, nb rfl, regField, reg rfl, b3Field, b3 rfl]
    decide
  | wr =>
    simp only [fixedFieldsHold, rsv, nbField, nb rfl, b3Field, b3 rfl]
    decide
  | rdu =>
    simp only [fixedFieldsHold, rsv, b2Field, b2 rfl, b3Field, b3 rfl]
    decide
  | rds =>
    simp only [fixedFieldsHold, rsv, b2Field, b2 rfl, b3Field, b3 rfl]
    decide
  | clr =>
    simp only [fixedFieldsHold, rsv, nbField, nb rfl, regField, reg rfl]
    decide

/-- The mask and match of a format are the decoder's test for its command (R114). -/
theorem masked_iff_decode (op : Op) (w : Word) :
    w &&& op.mask = op.pattern ↔ decode w = .ok (operandsOf op w) := by
  constructor
  · intro h
    exact (decode_eq_ok_iff w _).mpr ⟨op, opField_of_masked h, fixedFieldsHold_of_masked h, rfl⟩
  · intro h
    have format := encode_matchesFormat (operandsOf op w)
    rwa [Laws.MatchesFormat.Statement, encode_of_decode h, op_operandsOf] at format

/-- Settles O3: each clause is the decoder's test for one command, its operand fields written out. -/
theorem formatsAreMaskAndMatch : Obligations.FormatsAreMaskAndMatch := fun w =>
  ⟨masked_iff_decode .cfg w, masked_iff_decode .wr w, masked_iff_decode .rdu w,
    masked_iff_decode .rds w, masked_iff_decode .clr w⟩

/-- A word that decodes to a command has that command's format and no other (R117). -/
theorem masked_eq_of_decode {w : Word} {i : Instr} (h : decode w = .ok i) (op : Op) :
    (w &&& op.mask == op.pattern) = (op == i.op) := by
  rw [Bool.eq_iff_iff, beq_iff_eq, beq_iff_eq, masked_iff_decode, h, Except.ok.injEq]
  constructor
  · intro operands
    rw [operands, op_operandsOf]
  · rintro rfl
    exact (operandsOf_op_of_decode h).symm

/-- Settles O4: the one format of a word that decodes is its command's, and a format would make a refused
word decode. -/
theorem everyWordHasOneFormatOrNone : Obligations.EveryWordHasOneFormatOrNone := by
  intro w
  cases h : decode w with
  | ok i =>
    refine .inl ⟨i, rfl, ?_⟩
    simp only [masked_eq_of_decode h]
    cases i.op <;> rfl
  | error r =>
    refine .inr ⟨r, rfl, List.filter_eq_nil_iff.mpr fun op _ masked => ?_⟩
    cases h.symm.trans ((masked_iff_decode op w).mp (beq_iff_eq.mp masked))

/-- Settles O5: the decoder evaluated at each word. -/
theorem exampleWordsDecode : Obligations.ExampleWordsDecode := by
  unfold Obligations.ExampleWordsDecode
  decide

end Sys2Proof

namespace Sys2Proof.Machine

/-! ## The turn that issues a word to an idle block (R57, R111) -/

section Issue
variable {s : State}

theorem hostIssue_of_decode {w : Word} {i : Instr} (idle : s.fsm = .idle) (word : decode w = .ok i) :
    hostIssue w s = .run i s := by
  simp [hostIssue, idle, State.not_busy_of_idle idle, word]

theorem hostIssue_of_reserved {w : Word} {r : Reserved} (idle : s.fsm = .idle)
    (word : decode w = .error r) : hostIssue w s = .settled (.next (acceptReserved w s)) := by
  simp [hostIssue, idle, State.not_busy_of_idle idle, word]

/-- Taken in `IDLE`, the fault of a reserved word releases no pin (R241, R243). -/
theorem acceptReserved_of_idle (w : Word) (idle : s.fsm = .idle) :
    acceptReserved w s = { s with
      cmd := w, faultCause := .illegalCommand
      history := s.history ++ [.fault .illegalCommand], fsm := .fault } :=
  State.raiseFault_of_not_clear (s.latch w) .illegalCommand
    (by rw [State.latch_fsm, idle]; exact Family.noConfusion)

/-- In `IDLE` the step of a command is its accept step. -/
theorem exec_of_idle (i : Instr) (idle : s.fsm = .idle) : exec i s = accept i (started i) s := by
  cases i <;> simp only [exec, execCfg, execWr, execRdu, execRds, readCommand, execClr, idle] <;> rfl

theorem accept_of_passes {i : Instr} {start : State → State}
    (passes : firstFailingCheck i s = .noFault) :
    accept i start s = .next (start (s.latch (encode i))) := by
  obtain ⟨_, eq⟩ | ⟨fails, _⟩ := accept_cases i start s
  · exact eq
  · exact absurd passes fails

/-- A command with legal operands passes the checks of a configured block with a ready transport (R251). -/
theorem firstFailingCheck_of_ready {i : Instr} (legal : i.wellFormed s.params = true)
    (valid : s.cfgValid = true) (ready : s.xportReady = true) : firstFailingCheck i s = .noFault :=
  (firstFailingCheck_eq_noFault i s).mpr ⟨legal, fun _ => ⟨valid, ready⟩⟩

end Issue

/-- Settles O6: both turns are the Host's issue in `IDLE`, and the decoder gives the command. -/
theorem stepRunsIssuedWord : Obligations.StepRunsIssuedWord := by
  intro s w i rest idle word turn
  have issued : hostTurn (.issue w) (s.withSchedule rest) = .run i (s.withSchedule rest) :=
    hostIssue_of_decode (s := s.withSchedule rest) idle word
  obtain now | ready := turn
  · rw [step_of_host now, issued]
    rfl
  · rw [step_of_hostWhenReady_quiet ready (State.not_busy_of_idle idle), issued]
    rfl

/-- Settles O9: a word that decoded would have its command's opcode and fixed fields. -/
theorem reservedWordFaults : Obligations.ReservedWordFaults := by
  intro s w rest idle turn reserved
  cases h : decode w with
  | ok i =>
    obtain ⟨op, code, fixed, _⟩ := (decode_eq_ok_iff w i).mp h
    change w.extractLsb' 0 4 = op.code at code
    rw [code] at reserved
    cases op
    all_goals
      simp only [fixedFieldsHold, nbField, rsvField, regField, b2Field, b3Field, Bool.and_eq_true,
        beq_iff_eq] at fixed
      simp [Op.code, fixed] at reserved
  | error r =>
    rw [step_of_host turn, hostTurn, hostIssue_of_reserved (s := s.withSchedule rest) idle h]
    exact congrArg Host.Outcome.next (acceptReserved_of_idle (s := s.withSchedule rest) w idle)

/-! ## Undisturbed runs

With no turn listed every step is the running command's, so a run is the chain of the steps of R148, R149 and
R185. -/

/-- The inversion of `exec` the other way round: a running command's step is what `exec` answers. -/
theorem RunningStep.exec_eq {i : Instr} {s t : State} (h : RunningStep i s t) : exec i s = .next t := by
  cases i with
  | cfg addr => exact h.elim
  | wr reg val => cases h <;> simp only [exec, execWr, *]
  | rdu reg n => cases h <;> simp only [exec, execRdu, readCommand, Instr.op, *]
  | rds reg n => cases h <;> simp only [exec, execRds, readCommand, Instr.op, *]
  | clr sda scl => cases h <;> simp only [exec, execClr, *]

/-- So many steps of the machine lead from the one state to the other. -/
def RunsTo (k : Nat) (s t : State) : Prop := Host.Core.run Sys2Proof.core k s = .next t

section Run
variable {s t u : State} {j k : Nat}

theorem runsTo_zero : RunsTo 0 s t ↔ s = t :=
  ⟨Host.Outcome.next.inj, congrArg Host.Outcome.next⟩

theorem runsTo_succ : RunsTo (k + 1) s t ↔ ∃ u, step s = .next u ∧ RunsTo k u t := by
  have first : Sys2Proof.core.step s = step s := rfl
  unfold RunsTo
  simp only [Host.Core.run, first]
  cases step s <;> simp

theorem RunsTo.trans (head : RunsTo j s u) (tail : RunsTo k u t) : RunsTo (j + k) s t := by
  induction j generalizing s with
  | zero =>
    rw [Nat.zero_add, runsTo_zero.mp head]
    exact tail
  | succ j ih =>
    obtain ⟨v, first, rest⟩ := runsTo_succ.mp head
    rw [Nat.add_right_comm]
    exact runsTo_succ.mpr ⟨v, first, ih rest⟩

theorem RunsTo.ends_eq (run : RunsTo k s u) (same : u = t) : RunsTo k s t := same ▸ run

theorem RunsTo.of_step (h : step s = .next t) : RunsTo 1 s t :=
  runsTo_succ.mpr ⟨t, h, runsTo_zero.mpr rfl⟩

/-- The first step of an issued command: the accept step starts it (R111). -/
theorem RunsTo.issue {i : Instr} (idle : s.fsm = .idle)
    (turn : s.schedule = [.host (.issue (encode i))]) (passes : firstFailingCheck i s = .noFault) :
    RunsTo 1 s (started i ((s.withSchedule []).latch (encode i))) := by
  apply RunsTo.of_step
  rw [stepRunsIssuedWord s (encode i) i [] idle (decode_encode i) (.inl turn),
    exec_of_idle (s := s.withSchedule []) i idle]
  exact accept_of_passes passes

/-- The next step of an undisturbed command is the latched word's (R34). -/
theorem RunsTo.running {i : Instr} (word : s.cmd = encode i) (quiet : s.schedule = [])
    (h : RunningStep i s t) : RunsTo 1 s t := by
  apply RunsTo.of_step
  obtain ⟨notIdle, notFault⟩ := s.busy_eq_true.mp h.busy
  have latched : decode s.cmd = .ok i := by rw [word, decode_encode]
  rw [(stepRunsLatchedWord s i notIdle notFault latched).1 quiet, h.exec_eq]

end Run

/-- Settles O20: the accept step and the four steps of R148, one after the other. -/
theorem wrRunsItsFrame : Obligations.WrRunsItsFrame := by
  intro s reg val idle valid ready turn
  have passes : firstFailingCheck (.wr reg val) s = .noFault :=
    firstFailingCheck_of_ready rfl valid ready
  have frame :=
    ((((RunsTo.issue idle turn passes).trans
      (.running (i := .wr reg val) rfl rfl (.wBegin rfl))).trans
      (.running (i := .wr reg val) rfl rfl (.wReg rfl))).trans
      (.running (i := .wr reg val) rfl rfl (.wVal rfl))).trans
      (.running (i := .wr reg val) rfl rfl (.wEnd rfl))
  refine frame.ends_eq ?_
  simp [started, beginTransaction, State.finish, State.emit, State.goto, State.latch,
    State.withSchedule, idle]

end Sys2Proof.Machine

namespace Sys2Proof.Machine

/-! ## The value of the bytes read (R86, R155, R157 to R159) -/

/-- Each byte more makes eight bits more. -/
theorem two_pow_bits_cons (b : Byte) (rest : List Byte) :
    2 ^ (8 * (b :: rest).length) = 256 * 2 ^ (8 * rest.length) := by
  rw [List.length_cons, Nat.mul_succ, pow_add, mul_comm]
  norm_num

theorem bigEndian_lt (bytes : List Byte) : bigEndian bytes < 2 ^ (8 * bytes.length) := by
  induction bytes with
  | nil => decide
  | cons b rest ih =>
    have byte : b.toNat * 2 ^ (8 * rest.length) ≤ 255 * 2 ^ (8 * rest.length) :=
      Nat.mul_le_mul_right _ (by omega)
    rw [bigEndian, two_pow_bits_cons]
    omega

/-- While the accumulator has room for a byte, shifting one in appends it (R155). -/
theorem shiftIn_toNat {acc : Word} (room : acc.toNat < 2 ^ 24) (b : Byte) :
    (shiftIn acc b).toNat = acc.toNat * 256 + b.toNat := by
  have shifted : (acc <<< 8).toNat = acc.toNat <<< 8 := by
    rw [BitVec.toNat_shiftLeft, Nat.mod_eq_of_lt (by rw [Nat.shiftLeft_eq]; omega)]
  rw [shiftIn, BitVec.toNat_or, shifted, BitVec.toNat_setWidth_of_le (by decide),
    ← Nat.shiftLeft_add_eq_or_of_lt b.isLt, Nat.shiftLeft_eq]

/-- Shifting in bytes for which the accumulator has room appends their big-endian value (R157). -/
theorem foldl_shiftIn_toNat (bytes : List Byte) (acc : Word)
    (room : (acc.toNat + 1) * 2 ^ (8 * bytes.length) ≤ 2 ^ 32) :
    (bytes.foldl shiftIn acc).toNat = acc.toNat * 2 ^ (8 * bytes.length) + bigEndian bytes := by
  induction bytes generalizing acc with
  | nil => simp [bigEndian]
  | cons b rest ih =>
    rw [two_pow_bits_cons, ← mul_assoc] at room
    have byteRoom : (acc.toNat + 1) * 256 ≤ 2 ^ 32 :=
      (Nat.le_mul_of_pos_right _ (Nat.two_pow_pos _)).trans room
    have appended : (shiftIn acc b).toNat = acc.toNat * 256 + b.toNat :=
      shiftIn_toNat (by omega) b
    have restRoom : ((shiftIn acc b).toNat + 1) * 2 ^ (8 * rest.length) ≤ 2 ^ 32 :=
      (Nat.mul_le_mul_right _ (by omega)).trans room
    rw [List.foldl_cons, ih _ restRoom, appended, bigEndian, two_pow_bits_cons]
    ring

theorem foldl_shiftIn_zero_toNat {bytes : List Byte} (fits : bytes.length ≤ 4) :
    (bytes.foldl shiftIn 0).toNat = bigEndian bytes := by
  have room : 2 ^ (8 * bytes.length) ≤ 2 ^ 32 := Nat.pow_le_pow_right (by decide) (by omega)
  rw [foldl_shiftIn_toNat bytes 0 (by simpa using room)]
  simp

/-- The two shifts of R158 multiply and divide a signed number by the same power of two: they give the value
of the low `8n` bits as a signed number (R159). -/
theorem signExtend_toInt {acc : Word} {n : BitVec 3} (positive : 1 ≤ n.toNat) (fits : n.toNat ≤ 4)
    (low : acc.toNat < 2 ^ (8 * n.toNat)) :
    (signExtend acc n).toInt =
      if acc.toNat < 2 ^ (8 * n.toNat - 1) then (acc.toNat : Int)
      else (acc.toNat : Int) - 2 ^ (8 * n.toNat) := by
  rw [signExtend, BitVec.toInt_sshiftRight, BitVec.toInt_eq_toNat_cond, BitVec.toNat_shiftLeft,
    Nat.shiftLeft_eq, Int.shiftRight_eq_div_pow, signShift]
  generalize n.toNat = m at positive fits low ⊢
  interval_cases m <;> split <;> split <;> omega

theorem signExtend_foldl_toInt {bytes : List Byte} {n : BitVec 3} (positive : 1 ≤ n.toNat)
    (fits : n.toNat ≤ 4) (length : bytes.length = n.toNat) :
    (signExtend (bytes.foldl shiftIn 0) n).toInt = signedBytes bytes := by
  have value : (bytes.foldl shiftIn 0).toNat = bigEndian bytes :=
    foldl_shiftIn_zero_toNat (length ▸ fits)
  have low : (bytes.foldl shiftIn 0).toNat < 2 ^ (8 * n.toNat) := by
    rw [value, ← length]
    exact bigEndian_lt bytes
  rw [signExtend_toInt positive fits low, value, ← length]
  rfl

end Sys2Proof.Machine

namespace Sys2Proof.Machine

/-! ## The polls and the byte reads of an undisturbed read (R152, R153, R155) -/

section Listed
variable {n : BitVec 3} {s : State}

/-- A poll whose listed count is too few leaves the sequencer polling (R152). -/
theorem pollStep_of_few {c : Nat} {counts : List Nat} (few : c < n.toNat)
    (listed : s.countAnswers = c :: counts) :
    pollStep n s = { s with
      countAnswers := counts, history := s.history ++ [.tAvail c], fsm := .rPoll } := by
  have answer : s.available.1 = c := by rw [State.available, State.drawCount_answer, listed]; rfl
  rw [pollStep, if_neg (by omega), State.available_state, answer, listed]
  rfl

/-- A poll whose listed count is enough begins the read (R152). -/
theorem pollStep_of_enough {k : Nat} {counts : List Nat} (enough : n.toNat ≤ k)
    (listed : s.countAnswers = k :: counts) :
    pollStep n s = { s with
      countAnswers := counts, history := s.history ++ [.tAvail k], acc := 0, idx := 0,
      fsm := .rRead } := by
  have answer : s.available.1 = k := by rw [State.available, State.drawCount_answer, listed]; rfl
  rw [pollStep, if_pos (by omega), State.available_state, answer, listed]
  rfl

/-- A byte read takes the listed byte (R155). -/
theorem readStep_of_listed {b : Byte} {bytes : List Byte} (listed : s.byteAnswers = b :: bytes) :
    readStep n s = { s with
      byteAnswers := bytes, history := s.history ++ [.tRead b]
      buf := s.buf.setIfInBounds s.idx.toNat b, acc := shiftIn s.acc b, idx := s.idx + 1
      fsm := if s.idx + 1 = n then .rDone else .rRead } := by
  have answer : s.readByte.1 = b := by rw [State.readByte, State.drawByte_answer, listed]; rfl
  rw [readStep, State.readByte_state, answer, listed]
  rfl

end Listed

/-- The steps of the command `i` after accept are those of a read of `n` bytes from `reg` (R149, R162). -/
def Reads (i : Instr) (reg : Byte) (n : BitVec 3) (value : Word → Word) : Prop :=
  ∀ s t : State, ReadStep i.op reg n value s t → RunningStep i s t

theorem rdu_reads (reg : Byte) (n : BitVec 3) : Reads (.rdu reg n) reg n (unsignedValue n) :=
  fun _ _ => id

theorem rds_reads (reg : Byte) (n : BitVec 3) : Reads (.rds reg n) reg n (signedValue n) :=
  fun _ _ => id

section ReadRun
variable {i : Instr} {reg : Byte} {n : BitVec 3} {value : Word → Word} {s : State}

/-- The accept step and the framing steps of a read (R111, R149). -/
theorem Reads.framing (reads : Reads i reg n value) (starts : ∀ u, started i u = u.goto .rBegin)
    (idle : s.fsm = .idle) (turn : s.schedule = [.host (.issue (encode i))])
    (passes : firstFailingCheck i s = .noFault) :
    RunsTo 5 s { s with
      cmd := encode i, schedule := [], fsm := .rPoll
      history := s.history ++
        [.tBegin s.devaddr, .tWrite reg, .tEnd, .tRequest s.devaddr n] } := by
  have accepted := RunsTo.issue idle turn passes
  rw [starts] at accepted
  have framed :=
    (((accepted.trans
      (.running rfl rfl (reads _ _ (.rBegin rfl)))).trans
      (.running rfl rfl (reads _ _ (.rReg rfl)))).trans
      (.running rfl rfl (reads _ _ (.rEnd rfl)))).trans
      (.running rfl rfl (reads _ _ (.rReq rfl)))
  refine framed.ends_eq ?_
  simp [beginTransaction, State.emit, State.goto, State.latch, State.withSchedule]

/-- Every count too few is one poll, and the sequencer polls on (R153). -/
theorem Reads.polls (reads : Reads i reg n value) (few counts : List Nat) (polling : s.fsm = .rPoll)
    (word : s.cmd = encode i) (quiet : s.schedule = []) (short : ∀ c ∈ few, c < n.toNat)
    (listed : s.countAnswers = few ++ counts) :
    RunsTo few.length s { s with
      countAnswers := counts, history := s.history ++ few.map .tAvail } := by
  induction few generalizing s with
  | nil =>
    rw [List.nil_append] at listed
    exact runsTo_zero.mpr (by simp [← listed])
  | cons c few ih =>
    obtain ⟨less, shorter⟩ := List.forall_mem_cons.mp short
    have poll : RunsTo 1 s _ := .running word quiet (reads _ _ (.rPoll polling))
    rw [pollStep_of_few less listed] at poll
    have run := poll.trans (ih rfl word quiet shorter rfl)
    rw [List.length_cons, Nat.add_comm]
    refine run.ends_eq ?_
    simp [polling]

/-- The count that is enough is one poll, and the reading begins (R152). -/
theorem Reads.lastPoll (reads : Reads i reg n value) {k : Nat} {counts : List Nat}
    (polling : s.fsm = .rPoll) (word : s.cmd = encode i) (quiet : s.schedule = [])
    (enough : n.toNat ≤ k) (listed : s.countAnswers = k :: counts) :
    RunsTo 1 s { s with
      countAnswers := counts, history := s.history ++ [.tAvail k], acc := 0, idx := 0,
      fsm := .rRead } := by
  rw [← pollStep_of_enough enough listed]
  exact .running word quiet (reads _ _ (.rPoll polling))

/-- While bytes are left to read, each is one step, and the last leads to `R_DONE` (R155). -/
theorem Reads.bytes (reads : Reads i reg n value) (bytes more : List Byte)
    (reading : s.fsm = if bytes = [] then .rDone else .rRead)
    (word : s.cmd = encode i) (quiet : s.schedule = [])
    (left : s.idx.toNat + bytes.length = n.toNat) (listed : s.byteAnswers = bytes ++ more) :
    ∃ buf, RunsTo bytes.length s { s with
      byteAnswers := more, history := s.history ++ bytes.map .tRead, buf := buf
      acc := bytes.foldl shiftIn s.acc, idx := n, fsm := .rDone } := by
  induction bytes generalizing s with
  | nil =>
    have all : s.idx = n := BitVec.eq_of_toNat_eq left
    rw [if_pos rfl] at reading
    rw [List.nil_append] at listed
    exact ⟨s.buf, runsTo_zero.mpr (by simp [← listed, ← all, ← reading])⟩
  | cons b bytes ih =>
    rw [List.length_cons] at left
    have counted : (s.idx + 1).toNat = s.idx.toNat + 1 := by bv_omega
    have last : s.idx + 1 = n ↔ bytes = [] := by
      rw [← List.length_eq_zero_iff, BitVec.toNat_eq, counted]
      omega
    rw [if_neg (List.cons_ne_nil b bytes)] at reading
    have byte : RunsTo 1 s _ := .running word quiet (reads _ _ (.rRead reading))
    rw [readStep_of_listed listed] at byte
    obtain ⟨buf, rest⟩ := ih (s := { s with
      byteAnswers := bytes ++ more, history := s.history ++ [.tRead b]
      buf := s.buf.setIfInBounds s.idx.toNat b, acc := shiftIn s.acc b, idx := s.idx + 1
      fsm := if s.idx + 1 = n then .rDone else .rRead })
      (by simp only [last]) word quiet (by rw [counted]; omega) rfl
    rw [List.length_cons, Nat.add_comm]
    exact ⟨buf, (byte.trans rest).ends_eq (by simp)⟩

/-- A whole undisturbed read: the frame, the polls too few and the one that is enough, the bytes, and the
value delivered (R121, R122). -/
theorem Reads.whole (reads : Reads i reg n value) (starts : ∀ u, started i u = u.goto .rBegin)
    {few : List Nat} {k : Nat} {counts : List Nat} {bytes more : List Byte}
    (idle : s.fsm = .idle) (turn : s.schedule = [.host (.issue (encode i))])
    (passes : firstFailingCheck i s = .noFault) (positive : 1 ≤ n.toNat)
    (length : bytes.length = n.toNat) (short : ∀ c ∈ few, c < n.toNat) (enough : n.toNat ≤ k)
    (countsListed : s.countAnswers = few ++ k :: counts) (bytesListed : s.byteAnswers = bytes ++ more) :
    ∃ buf, RunsTo (7 + few.length + bytes.length) s { s with
      cmd := encode i, schedule := [], countAnswers := counts, byteAnswers := more, buf := buf
      acc := bytes.foldl shiftIn 0, idx := n
      result := value (bytes.foldl shiftIn 0), resultValid := true
      history := s.history ++ [.tBegin s.devaddr, .tWrite reg, .tEnd, .tRequest s.devaddr n]
        ++ few.map .tAvail ++ [.tAvail k] ++ bytes.map .tRead
        ++ [.done i.op (some (value (bytes.foldl shiftIn 0)))] } := by
  have nonempty : bytes ≠ [] := List.ne_nil_of_length_pos (by omega)
  have polled := ((reads.framing starts idle turn passes).trans
    (reads.polls few (k :: counts) rfl rfl rfl short countsListed)).trans
    (reads.lastPoll rfl rfl rfl enough rfl)
  obtain ⟨buf, read⟩ := reads.bytes (s := { s with
      cmd := encode i, schedule := [], countAnswers := counts, acc := 0, idx := 0, fsm := .rRead
      history := s.history ++ [.tBegin s.devaddr, .tWrite reg, .tEnd, .tRequest s.devaddr n]
        ++ few.map .tAvail ++ [.tAvail k] })
    bytes more (if_neg nonempty).symm rfl rfl (by simpa using length) bytesListed
  have delivered := (polled.trans read).trans
    (.running rfl rfl (reads _ _ (.rDone rfl)))
  have steps : 7 + few.length + bytes.length = 5 + few.length + 1 + bytes.length + 1 := by omega
  rw [steps]
  exact ⟨buf, delivered.ends_eq
    (by simp [deliver, State.finish, State.emit, State.goto, idle])⟩

end ReadRun

theorem legalNumBytes_of_bounds {n : BitVec 3} (positive : 1 ≤ n.toNat) (fits : n.toNat ≤ 4) :
    legalNumBytes n = true := by
  simp [legalNumBytes, positive, fits]

/-- Settles O21: the whole read, which delivers the bytes as they were shifted in. -/
theorem rduRunsAndDelivers : Obligations.RduRunsAndDelivers := by
  intro s reg n few k counts bytes more idle valid ready turn positive fits length short enough
    countsListed bytesListed
  obtain ⟨buf, run⟩ := (rdu_reads reg n).whole (fun _ => rfl) idle turn
    (firstFailingCheck_of_ready (legalNumBytes_of_bounds positive fits) valid ready) positive length
    short enough countsListed bytesListed
  exact ⟨_, run, idle, rfl, foldl_shiftIn_zero_toNat (length ▸ fits), rfl, rfl, rfl, rfl, rfl, rfl, rfl,
    rfl⟩

/-- Settles O22: the whole read, which delivers the bytes sign-extended. -/
theorem rdsRunsAndDelivers : Obligations.RdsRunsAndDelivers := by
  intro s reg n few k counts bytes more idle valid ready turn positive fits length short enough
    countsListed bytesListed
  obtain ⟨buf, run⟩ := (rds_reads reg n).whole (fun _ => rfl) idle turn
    (firstFailingCheck_of_ready (legalNumBytes_of_bounds positive fits) valid ready) positive length
    short enough countsListed bytesListed
  exact ⟨_, run, idle, rfl, signExtend_foldl_toInt positive fits length, rfl, rfl, rfl, rfl, rfl, rfl,
    rfl, rfl⟩

end Sys2Proof.Machine

namespace Sys2Proof.Machine

/-! ## The forms of the sign extension and of the assembly (R86, R157, R159) -/

/-- Shifting the low `k` bits to the top and back down with the sign is their sign extension. -/
theorem sshiftRight_shiftLeft_eq_signExtend {w k : Nat} (x : BitVec w) (fits : k ≤ w) :
    (x <<< (w - k)).sshiftRight (w - k) = (x.extractLsb' 0 k).signExtend w := by
  ext i hi
  rw [BitVec.getElem_sshiftRight, BitVec.getElem_signExtend]
  by_cases low : i < k
  · have inside : w - k + i < w := by omega
    simp [low, inside, hi]
  · have outside : ¬ w - k + i < w := by omega
    have fromTop : w - (0 + k) = w - k := by omega
    rw [dif_neg outside, dif_neg low, BitVec.msb_shiftLeft, BitVec.msb_extractLsb', fromTop]
    by_cases empty : k = 0
    · simp [empty]
    · simp [fits, Nat.pos_of_ne_zero empty]

/-- The top bit of a number of `k + 1` bits tells on which side of `2^k` it lies. -/
theorem getLsbD_top_iff {w k : Nat} {x : BitVec w} (fits : x.toNat < 2 ^ (k + 1)) :
    x.getLsbD k = true ↔ ¬ x.toNat < 2 ^ k := by
  constructor
  · intro set small
    rw [BitVec.getLsbD, Nat.testBit_lt_two_pow small] at set
    cases set
  · intro large
    exact Nat.testBit_of_two_pow_le_and_two_pow_add_one_gt (Nat.le_of_not_lt large) fits

/-- Settles O17: the two shifts bring the low bits to the top and back, and the sign is their top bit. -/
theorem signExtensionByShifts : Obligations.SignExtensionByShifts := by
  intro acc n positive fits
  refine ⟨sshiftRight_shiftLeft_eq_signExtend acc (by omega), fun low => ?_⟩
  have topBit : 8 * n.toNat - 1 + 1 = 8 * n.toNat := by omega
  have sign := getLsbD_top_iff (k := 8 * n.toNat - 1) (topBit.symm ▸ low)
  rw [signExtend_toInt positive fits low]
  simp only [sign, ite_not]

/-- Settles O18: with room for every byte, each shift-in appends one, and each byte is eight bits. -/
theorem assemblyIsBigEndian : Obligations.AssemblyIsBigEndian := fun bytes fits =>
  ⟨foldl_shiftIn_zero_toNat fits, bigEndian_lt bytes⟩

end Sys2Proof.Machine

namespace Sys2Proof.Machine

/-! ## The steps of CFG, WR, RDU and RDS (R146 to R156) -/

/-- CFG needs no transport, so a legal address passes all its checks (R251). -/
theorem firstFailingCheck_cfg {s : State} {addr : Byte} (legal : addr.toNat ≤ 127) :
    firstFailingCheck (.cfg addr) s = .noFault :=
  (firstFailingCheck_eq_noFault _ s).mpr ⟨decide_eq_true legal, Bool.noConfusion⟩

/-- Settles O11: the accept step starts CFG, which completes there. -/
theorem cfgCompletes : Obligations.CfgCompletes := by
  intro s addr idle legal
  rw [exec_of_idle _ idle, accept_of_passes (firstFailingCheck_cfg legal),
    ← BitVec.setWidth_eq_extractLsb' (by decide)]
  simp [started, startCfg, State.latch, State.finish, State.emit, State.goto, idle]

theorem WrStep.exec_eq {reg val : Byte} {s t : State} (h : WrStep reg val s t) :
    exec (.wr reg val) s = .next t :=
  RunningStep.exec_eq (i := .wr reg val) h

/-- Settles O12: the steps of WR, of which the last records two events. -/
theorem wrSteps : Obligations.WrSteps := by
  intro s reg val
  refine ⟨fun h => WrStep.exec_eq (.wBegin h), fun h => WrStep.exec_eq (.wReg h),
    fun h => WrStep.exec_eq (.wVal h), fun h => ?_⟩
  rw [WrStep.exec_eq (.wEnd h)]
  simp [State.finish, State.emit, State.goto]

/-- In range, the bounds-checked store of a byte is the plain one. -/
theorem setIfInBounds_eq_set {α : Type} {size k : Nat} (xs : Vector α size) (x : α) (bound : k < size) :
    xs.setIfInBounds k x = xs.set k x bound := by
  ext j hj
  rw [Vector.getElem_setIfInBounds, Vector.getElem_set]

section Read
variable {i : Instr} {reg : Byte} {n : BitVec 3} {s : State}

/-- RDU and RDS share the steps of a read and differ in the value delivered only (R162). -/
theorem exists_reads (h : i = .rdu reg n ∨ i = .rds reg n) : ∃ value, Reads i reg n value := by
  obtain rfl | rfl := h
  · exact ⟨_, rdu_reads reg n⟩
  · exact ⟨_, rds_reads reg n⟩

theorem Reads.exec_eq {value : Word → Word} {t : State} (reads : Reads i reg n value)
    (h : ReadStep i.op reg n value s t) : exec i s = .next t :=
  (reads s t h).exec_eq

end Read

/-- Settles O13: the four framing steps of the read that both commands share. -/
theorem readFramingSteps : Obligations.ReadFramingSteps := by
  intro s reg n i isRead
  obtain ⟨value, reads⟩ := exists_reads isRead
  exact ⟨fun h => reads.exec_eq (.rBegin h), fun h => reads.exec_eq (.rReg h),
    fun h => reads.exec_eq (.rEnd h), fun h => reads.exec_eq (.rReq h)⟩

/-- Settles O14: the step in `R_POLL` is one poll. -/
theorem exec_pollStep : Obligations.PollStep := by
  intro s reg n i isRead polling
  obtain ⟨value, reads⟩ := exists_reads isRead
  exact ⟨reads.exec_eq (.rPoll polling), s.available_history⟩

/-- Settles O15: the step in `R_READ` is one byte, stored in a cell that `buf` has. -/
theorem readByteStep : Obligations.ReadByteStep := by
  intro s reg n i isRead reading bound
  obtain ⟨value, reads⟩ := exists_reads isRead
  refine ⟨?_, s.readByte_history⟩
  rw [reads.exec_eq (.rRead reading), readStep, setIfInBounds_eq_set _ _ bound]
  rfl

/-- Settles O16: the step in `R_DONE` delivers `acc` or its sign extension. -/
theorem readDoneStep : Obligations.ReadDoneStep := fun _ reg n done =>
  ⟨(rdu_reads reg n).exec_eq (.rDone done), (rds_reads reg n).exec_eq (.rDone done)⟩

/-- Settles O23: the latched word is the read's, and every poll of an undisturbed read finds too few. -/
theorem readWaitsWithoutBound : Obligations.ReadWaitsWithoutBound := by
  intro s reg n few counts polling quiet word short listed
  obtain ⟨i, isRead, latched⟩ : ∃ i, (i = .rdu reg n ∨ i = .rds reg n) ∧ decode s.cmd = .ok i :=
    word.elim (⟨_, .inl rfl, ·⟩) (⟨_, .inr rfl, ·⟩)
  obtain ⟨value, reads⟩ := exists_reads isRead
  exact reads.polls few counts polling (encode_of_decode latched).symm quiet short listed

end Sys2Proof.Machine

namespace Sys2Proof.Machine

/-! ## What the register commands leave unchanged (R146, R147, R150, R151) -/

/-- What no register command writes: the parameters, CLR's registers, the pins, and the record of the agents
other than the Transport. -/
structure Bystanders where
  params : Params
  xportReady : Bool
  retries : BitVec 5
  polls : BitVec 5
  sdaLow : Bool
  sclLow : Bool
  st : BitVec 2
  sdaPin : Byte
  sclPin : Byte
  pinMode : Vector PinMode 256
  schedule : List Turn
  levelAnswers : List Level
  reads : List (Nat × Word)

def State.bystanders (s : State) : Bystanders :=
  ⟨s.params, s.xportReady, s.retries, s.polls, s.sdaLow, s.sclLow, s.st, s.sdaPin, s.sclPin, s.pinMode,
    s.schedule, s.levelAnswers, s.reads⟩

/-- What of the block and of the Transport's record only a read writes, among the register commands. -/
structure ReadPart where
  result : Word
  resultValid : Bool
  acc : Word
  buf : Vector Byte 4
  idx : BitVec 3
  countAnswers : List Nat
  byteAnswers : List Byte
  freeDraws : Nat

def State.readPart (s : State) : ReadPart :=
  ⟨s.result, s.resultValid, s.acc, s.buf, s.idx, s.countAnswers, s.byteAnswers, s.freeDraws⟩

section Frame
variable {i : Instr} {s t : State}

/-- In `IDLE` no pin is released, so a failed check's fault writes no more than the latched word, the cause,
the event and `fsm` (R241). -/
theorem rejected_frame (idle : s.fsm = .idle) (w : Word) (c : FaultCause) :
    ((s.latch w).raiseFault c).bystanders = s.bystanders ∧
      ((s.latch w).raiseFault c).readPart = s.readPart := by
  have notClear : (s.latch w).fsm.family ≠ .clear := by
    rw [State.latch_fsm, idle]
    exact Family.noConfusion
  rw [State.raiseFault_of_not_clear _ c notClear]
  exact ⟨rfl, rfl⟩

theorem started_bystanders (notClr : i.op ≠ .clr) (w : Word) :
    (started i (s.latch w)).bystanders = s.bystanders := by
  cases i with
  | clr sda scl => exact absurd rfl notClr
  | _ => rfl

theorem started_readPart (i : Instr) (s : State) (w : Word) :
    (started i (s.latch w)).readPart = s.readPart := by
  cases i <;> rfl

theorem State.available_bystanders (s : State) : s.available.2.bystanders = s.bystanders := by
  rw [State.available_state]
  rfl

theorem State.readByte_bystanders (s : State) : s.readByte.2.bystanders = s.bystanders := by
  rw [State.readByte_state]
  rfl

theorem pollStep_bystanders (n : BitVec 3) (s : State) : (pollStep n s).bystanders = s.bystanders := by
  unfold pollStep
  split
  · exact s.available_bystanders
  · exact s.available_bystanders

theorem WrStep.frame {reg val : Byte} (h : WrStep reg val s t) :
    t.bystanders = s.bystanders ∧ t.readPart = s.readPart := by
  cases h <;> exact ⟨rfl, rfl⟩

theorem ReadStep.bystanders_eq {op : Op} {reg : Byte} {n : BitVec 3} {value : Word → Word}
    (h : ReadStep op reg n value s t) : t.bystanders = s.bystanders := by
  cases h
  case rPoll => exact pollStep_bystanders n s
  case rRead => exact s.readByte_bystanders
  all_goals rfl

theorem RunningStep.bystanders_eq (h : RunningStep i s t) (notClr : i.op ≠ .clr) :
    t.bystanders = s.bystanders := by
  cases i with
  | cfg addr => exact h.elim
  | wr reg val => exact (WrStep.frame h).1
  | rdu reg n => exact ReadStep.bystanders_eq h
  | rds reg n => exact ReadStep.bystanders_eq h
  | clr sda scl => exact absurd rfl notClr

theorem RunningStep.readPart_eq (h : RunningStep i s t) (noRead : i.op = .cfg ∨ i.op = .wr) :
    t.readPart = s.readPart := by
  cases i with
  | cfg addr => exact h.elim
  | wr reg val => exact (WrStep.frame h).2
  | _ => simp [Instr.op] at noRead

theorem exec_bystanders (h : exec i s = .next t) (notClr : i.op ≠ .clr) :
    t.bystanders = s.bystanders := by
  cases exec_next_cases i s t h with
  | ignored _ eq => rw [eq]
  | rejected idle _ eq => exact eq ▸ (rejected_frame idle _ _).1
  | started _ _ eq => exact eq ▸ started_bystanders notClr _
  | running step => exact step.bystanders_eq notClr

theorem exec_readPart (h : exec i s = .next t) (noRead : i.op = .cfg ∨ i.op = .wr) :
    t.readPart = s.readPart := by
  cases exec_next_cases i s t h with
  | ignored _ eq => rw [eq]
  | rejected idle _ eq => exact eq ▸ (rejected_frame idle _ _).2
  | started _ _ eq => exact eq ▸ started_readPart i s _
  | running step => exact step.readPart_eq noRead

/-- After accept a command's step writes none of the registers that the accept step writes (R111). -/
theorem exec_standing (h : exec i s = .next t) (notIdle : s.fsm ≠ .idle) : t.standing = s.standing := by
  cases exec_next_cases i s t h with
  | ignored _ eq => rw [eq]
  | rejected idle _ _ => exact absurd idle notIdle
  | started idle _ _ => exact absurd idle notIdle
  | running step => exact step.standing_eq

end Frame

/-- Settles O35, over the ways of a command's step: no register command writes the bystanders, only CFG's
accept step the address, and neither CFG nor WR what a read writes. -/
theorem registerCommandsFrame : Obligations.RegisterCommandsFrame := by
  intro i s t notClr h
  obtain ⟨params, xportReady, retries, polls, sdaLow, sclLow, st, sdaPin, sclPin, pinMode, schedule,
    levelAnswers, reads⟩ := Bystanders.mk.inj (exec_bystanders h notClr)
  refine ⟨⟨params, xportReady, retries, polls, sdaLow, sclLow, st, sdaPin, sclPin, pinMode, schedule,
    levelAnswers, reads, fun notIdle => ?_⟩, fun notCfg => exec_sameAddress h fun _ => notCfg,
    fun noRead => ReadPart.mk.inj (exec_readPart h noRead)⟩
  have standing := exec_standing h notIdle
  exact ⟨congrArg Standing.cmd standing, congrArg Standing.faultCause standing⟩

end Sys2Proof.Machine

namespace Sys2Proof.Machine

/-! ## What a step of CLR does to the pins (R187 to R208, R214, R215) -/

/-- The modes that the step of CLR from a state gives to the SDA pin and to the SCL pin (R185). -/
def modesSet : Fsm → Option PinMode × Option PinMode
  | .cbRelSda => (some .inputPullup, none)
  | .cbRelScl => (none, some .inputPullup)
  | .cbPulseLow => (none, some .output)
  | .cbPulseRel => (none, some .inputPullup)
  | .cbStart => (some .output, none)
  | .cbStop => (some .inputPullup, none)
  | .cbFinSda => (some .input, none)
  | .cbFinScl => (none, some .input)
  | _ => (none, none)

/-- The two pins differ and are in the modes expected of them: what `LinesSafe` says of CLR's own pins. -/
structure State.PinsFit (s : State) : Prop where
  differ : s.sdaPin ≠ s.sclPin
  sda : s.HasMode s.sdaPin (expectedModes s.fsm).1
  scl : s.HasMode s.sclPin (expectedModes s.fsm).2

section Pins
variable {s t : State}

@[simp] theorem State.sample_pinMode (s : State) (p : Byte) : (s.sample p).2.pinMode = s.pinMode := by
  rw [State.sample_state]

theorem handOver_eq (s : State) : handOver s = { s with
    history := s.history ++ (if s.params.hasBusController then [.ctrlOff] else [])
    xportReady := false, fsm := .cbRelSda } := by
  unfold handOver
  split <;> simp [State.goto, State.emit]

theorem handOver_pinMode (s : State) : (handOver s).pinMode = s.pinMode := by
  rw [handOver_eq]

theorem checkScl_pinMode (s : State) : (checkScl s).pinMode = s.pinMode := by
  unfold checkScl
  split <;> exact s.sample_pinMode s.sclPin

theorem pulseLoop_pinMode (s : State) : (pulseLoop s).pinMode = s.pinMode := by
  unfold pulseLoop
  split_ifs <;> rfl

theorem reportStatus_modeOf (s : State) (p : Byte) :
    (reportStatus s).modeOf p = if p = s.sclPin then .input else s.modeOf p :=
  s.modeOf_setMode s.sclPin p .input

theorem stretchTest_pinMode (s : State) : (stretchTest s).pinMode = s.pinMode := by
  unfold stretchTest
  split_ifs <;> rfl

/-- A step of CLR that sets no mode leaves the pins as they are. -/
theorem ClrStep.pinMode_eq (h : ClrStep s t) (unset : modesSet s.fsm = (none, none)) :
    t.pinMode = s.pinMode := by
  cases h
  case cbInit => exact handOver_pinMode s
  case cbChkScl => exact checkScl_pinMode s
  case cbChkSda => exact s.sample_pinMode s.sdaPin
  case cbLoop => exact pulseLoop_pinMode s
  case cbStrChk => exact s.sample_pinMode s.sclPin
  case cbStrTest => exact stretchTest_pinMode s
  case cbStrSample => exact s.sample_pinMode s.sclPin
  case cbRecheckSda => exact s.sample_pinMode s.sdaPin
  case cbSettle | cbHoldLow | cbHoldHigh | cbStrWait | cbStartHold | cbStopHold => rfl
  all_goals simp [*, modesSet] at unset

/-- The mode of a pin after a step of CLR: the one the step sets, and else the one before. -/
theorem ClrStep.modeOf_eq (h : ClrStep s t) (p : Byte) :
    t.modeOf p = (if p = s.sdaPin then (modesSet s.fsm).1 else none).getD
      ((if p = s.sclPin then (modesSet s.fsm).2 else none).getD (s.modeOf p)) := by
  by_cases unset : modesSet s.fsm = (none, none)
  · simp [unset, State.modeOf_congr (h.pinMode_eq unset) p]
  · cases h
    case cbRelSda | cbRelScl | cbPulseLow | cbPulseRel | cbStart | cbStop | cbFinSda =>
      simp only [*, modesSet, State.modeOf_goto, State.modeOf_setMode]
      split <;> simp
    case cbFinScl h =>
      rw [h, reportStatus_modeOf]
      split <;> simp [modesSet, *]
    all_goals simp [*, modesSet] at unset

/-- CLR touches no pin but its two (R219). -/
theorem ClrStep.modeOf_other (h : ClrStep s t) {p : Byte} (notSda : p ≠ s.sdaPin)
    (notScl : p ≠ s.sclPin) : t.modeOf p = s.modeOf p := by
  simp [h.modeOf_eq, notSda, notScl]

theorem ClrStep.modeOf_sdaPin (h : ClrStep s t) (differ : s.sdaPin ≠ s.sclPin) :
    t.modeOf s.sdaPin = (modesSet s.fsm).1.getD (s.modeOf s.sdaPin) := by
  simp [h.modeOf_eq, differ]

theorem ClrStep.modeOf_sclPin (h : ClrStep s t) (differ : s.sdaPin ≠ s.sclPin) :
    t.modeOf s.sclPin = (modesSet s.fsm).2.getD (s.modeOf s.sclPin) := by
  simp [h.modeOf_eq, differ.symm]

theorem checkScl_expectedModes (s : State) :
    expectedModes (checkScl s).fsm = (some .inputPullup, some .inputPullup) := by
  unfold checkScl
  split <;> rfl

theorem pulseLoop_expectedModes (s : State) :
    expectedModes (pulseLoop s).fsm = (some .inputPullup, some .inputPullup) := by
  unfold pulseLoop
  split_ifs <;> rfl

theorem stretchTest_expectedModes (s : State) :
    expectedModes (stretchTest s).fsm = (some .inputPullup, some .inputPullup) := by
  unfold stretchTest
  split_ifs <;> rfl

/-- What is expected after a step of CLR is what was expected before it, as far as the step sets no mode.
After the last step nothing is expected. -/
theorem ClrStep.expectedModes_eq (h : ClrStep s t) (notLast : s.fsm ≠ .cbFinScl) :
    expectedModes t.fsm = ((modesSet s.fsm).1.or (expectedModes s.fsm).1,
      (modesSet s.fsm).2.or (expectedModes s.fsm).2) := by
  cases h
  case cbChkScl h => rw [h, checkScl_expectedModes]; rfl
  case cbLoop h => rw [h, pulseLoop_expectedModes]; rfl
  case cbStrTest h => rw [h, stretchTest_expectedModes]; rfl
  case cbFinScl h => exact absurd h notLast
  all_goals simp only [*]; rfl

theorem ClrStep.fsm_of_cbFinScl (h : ClrStep s t) (last : s.fsm = .cbFinScl) : t.fsm = .idle := by
  cases h
  case cbFinScl => rfl
  all_goals simp_all

/-- A pin that a step sets, or leaves in its expected mode, is in the mode expected next. -/
theorem hasMode_of_set {p : Byte} {set expected : Option PinMode} (before : s.HasMode p expected)
    (after : t.modeOf p = set.getD (s.modeOf p)) : t.HasMode p (set.or expected) := by
  intro x hx
  cases set with
  | none => exact after.trans (before x hx)
  | some m => exact after.trans (Option.some.inj hx)

theorem ClrStep.sdaPin_eq (h : ClrStep s t) : t.sdaPin = s.sdaPin :=
  congrArg Standing.sdaPin h.standing_eq

theorem ClrStep.sclPin_eq (h : ClrStep s t) : t.sclPin = s.sclPin :=
  congrArg Standing.sclPin h.standing_eq

/-- Nothing is asked of a pin where no mode is expected. -/
theorem State.hasMode_none (s : State) (p : Byte) : s.HasMode p none := fun x expected =>
  absurd expected (Option.not_mem_none x)

theorem State.pinsFit_of_unexpected (differ : s.sdaPin ≠ s.sclPin)
    (unexpected : expectedModes s.fsm = (none, none)) : s.PinsFit :=
  ⟨differ, unexpected ▸ s.hasMode_none _, unexpected ▸ s.hasMode_none _⟩

theorem ClrStep.pinsFit (h : ClrStep s t) (fit : s.PinsFit) : t.PinsFit := by
  obtain ⟨differ, sda, scl⟩ := fit
  have differAfter : t.sdaPin ≠ t.sclPin := by rwa [h.sdaPin_eq, h.sclPin_eq]
  by_cases last : s.fsm = .cbFinScl
  · exact State.pinsFit_of_unexpected differAfter (by rw [h.fsm_of_cbFinScl last]; rfl)
  · refine ⟨differAfter, ?_, ?_⟩
    · rw [h.sdaPin_eq, h.expectedModes_eq last]
      exact hasMode_of_set sda (h.modeOf_sdaPin differ)
    · rw [h.sclPin_eq, h.expectedModes_eq last]
      exact hasMode_of_set scl (h.modeOf_sclPin differ)

end Pins

/-! ## The lines are driven only inside CLR and one at a time (R212, R214, R215) -/

section Lines
variable {s t : State}

theorem expectedModes_of_not_clear {f : Fsm} (h : f.family ≠ .clear) :
    expectedModes f = (none, none) := by
  revert h
  cases f <;> decide

theorem State.LinesSafe.allReleased (safe : s.LinesSafe)
    (unexpected : expectedModes s.fsm = (none, none)) : s.AllReleased := by
  obtain ⟨-, -, -, driven⟩ := safe
  intro p output
  simpa [unexpected] using driven p output

theorem State.LinesSafe.pinsFit (safe : s.LinesSafe) (clear : s.fsm.family = .clear) : s.PinsFit := by
  obtain ⟨differ, sda, scl, -⟩ := safe
  exact ⟨differ clear, sda, scl⟩

theorem State.linesSafe_of_allReleased (released : s.AllReleased)
    (differ : s.fsm.family = .clear → s.sdaPin ≠ s.sclPin)
    (unexpected : expectedModes s.fsm = (none, none)) : s.LinesSafe := by
  refine ⟨differ, ?_, ?_, fun p output => absurd output (released p)⟩
  · rw [unexpected]
    exact s.hasMode_none _
  · rw [unexpected]
    exact s.hasMode_none _

/-- Where no CLR runs, the lines are safe exactly if every pin is released. -/
theorem State.linesSafe_iff_of_not_clear (notClear : s.fsm.family ≠ .clear) :
    s.LinesSafe ↔ s.AllReleased :=
  ⟨fun safe => safe.allReleased (expectedModes_of_not_clear notClear),
    fun released => State.linesSafe_of_allReleased released (absurd · notClear)
      (expectedModes_of_not_clear notClear)⟩

theorem State.AllReleased.of_pinMode_eq (released : s.AllReleased) (same : t.pinMode = s.pinMode) :
    t.AllReleased := fun p => State.modeOf_congr same p ▸ released p

/-- Fault entry releases every pin: only CLR's own two can be driven (R241). -/
theorem State.LinesSafe.raiseFault (safe : s.LinesSafe) (c : FaultCause) : (s.raiseFault c).LinesSafe := by
  refine State.linesSafe_of_allReleased (fun p => ?_) Family.noConfusion rfl
  rw [State.modeOf_raiseFault]
  by_cases clear : s.fsm.family = .clear
  · rw [State.modeOf_releasePins s p clear]
    split
    · exact PinMode.noConfusion
    · next kept =>
      intro output
      obtain ⟨-, -, -, driven⟩ := safe
      exact kept ⟨(driven p output).imp And.left And.left, output⟩
  · rw [State.releasePins_of_not_clear s clear]
    exact (State.linesSafe_iff_of_not_clear clear).mp safe p

/-- The last step of CLR leaves every pin released (R208, R209, R212). -/
theorem ClrStep.allReleased_of_last (h : ClrStep s t) (safe : s.LinesSafe) (last : s.fsm = .cbFinScl) :
    t.AllReleased := by
  obtain ⟨-, sda, -, driven⟩ := safe
  intro p output
  rw [last] at sda driven
  rw [h.modeOf_eq, last] at output
  by_cases isScl : p = s.sclPin
  · simp [isScl, modesSet] at output
  · simp only [modesSet, isScl, if_false, ite_self, Option.getD_none] at output
    simpa [expectedModes] using driven p output

/-- A pin that is driven was set so, or was driven before. -/
theorem or_eq_some_output {set expected : Option PinMode} {before : PinMode}
    (after : set.getD before = .output) (driven : before = .output → expected = some .output) :
    set.or expected = some .output := by
  cases set with
  | none => exact driven after
  | some m => exact congrArg some after

/-- A pin driven after a step of CLR is one the step drives, or one expected to be driven before it. -/
theorem ClrStep.driven (h : ClrStep s t) (safe : s.LinesSafe) (differ : s.sdaPin ≠ s.sclPin) {p : Byte}
    (output : t.modeOf p = .output) :
    (p = s.sdaPin ∧ (modesSet s.fsm).1.or (expectedModes s.fsm).1 = some .output) ∨
      (p = s.sclPin ∧ (modesSet s.fsm).2.or (expectedModes s.fsm).2 = some .output) := by
  obtain ⟨-, -, -, driven⟩ := safe
  by_cases isSda : p = s.sdaPin
  · subst isSda
    exact .inl ⟨rfl, or_eq_some_output (h.modeOf_sdaPin differ ▸ output) fun before =>
      (driven _ before).elim And.right fun other => absurd other.1 differ⟩
  · by_cases isScl : p = s.sclPin
    · subst isScl
      exact .inr ⟨rfl, or_eq_some_output (h.modeOf_sclPin differ ▸ output) fun before =>
        (driven _ before).elim (fun other => absurd other.1 isSda) And.right⟩
    · rw [h.modeOf_other isSda isScl] at output
      exact (driven p output).elim (fun other => absurd other.1 isSda) fun other => absurd other.1 isScl

theorem ClrStep.linesSafe (h : ClrStep s t) (safe : s.LinesSafe) : t.LinesSafe := by
  by_cases last : s.fsm = .cbFinScl
  · have idle := h.fsm_of_cbFinScl last
    rw [State.linesSafe_iff_of_not_clear (by rw [idle]; exact Family.noConfusion)]
    exact h.allReleased_of_last safe last
  · have fit : s.PinsFit := safe.pinsFit h.family.1
    obtain ⟨differ, sda, scl⟩ := h.pinsFit fit
    refine ⟨fun _ => differ, sda, scl, fun p output => ?_⟩
    rw [h.sdaPin_eq, h.sclPin_eq, h.expectedModes_eq last]
    exact h.driven safe fit.differ output

theorem Instr.eq_clr_of_op {i : Instr} (h : i.op = .clr) : ∃ sda scl, i = .clr sda scl := by
  cases i with
  | clr sda scl => exact ⟨sda, scl, rfl⟩
  | _ => cases h

theorem RunningStep.linesSafe {i : Instr} (h : RunningStep i s t) (safe : s.LinesSafe) : t.LinesSafe := by
  by_cases clear : instrFamily i = .clear
  · cases i with
    | clr sda scl => exact ClrStep.linesSafe h safe
    | _ => cases clear
  · have notClr : i.op ≠ .clr := fun isClr => by
      obtain ⟨sda, scl, rfl⟩ := Instr.eq_clr_of_op isClr
      exact clear rfl
    have notClear : t.fsm.family ≠ .clear := by
      obtain idle | family := h.family.2
      · rw [idle]; decide
      · rwa [family]
    rw [State.linesSafe_iff_of_not_clear (h.family.1 ▸ clear)] at safe
    rw [State.linesSafe_iff_of_not_clear notClear]
    exact safe.of_pinMode_eq (congrArg Bystanders.pinMode (h.bystanders_eq notClr))

/-- Legal pins of a CLR are two pins (R248). -/
theorem pins_differ_of_wellFormed {p : Params} {sda scl : Byte}
    (legal : (Instr.clr sda scl).wellFormed p = true) : sda ≠ scl := by
  simp only [Instr.wellFormed, Bool.and_eq_true, bne_iff_ne] at legal
  exact legal.2

/-- A command starts with every pin released, and CLR with two different pins (R248). -/
theorem started_linesSafe {i : Instr} (passes : firstFailingCheck i s = .noFault)
    (released : s.AllReleased) : (started i (s.latch (encode i))).LinesSafe := by
  cases i with
  | clr sda scl =>
    obtain ⟨legal, _⟩ := (firstFailingCheck_eq_noFault _ s).mp passes
    have differ : sda ≠ scl := pins_differ_of_wellFormed legal
    exact State.linesSafe_of_allReleased released (fun _ => differ) rfl
  | _ => exact State.linesSafe_of_allReleased released Family.noConfusion rfl

theorem exec_linesSafe {i : Instr} (h : exec i s = .next t) (safe : s.LinesSafe) : t.LinesSafe := by
  cases exec_next_cases i s t h with
  | ignored _ eq => exact eq ▸ safe
  | rejected _ _ eq => exact eq ▸ State.LinesSafe.raiseFault (s := s.latch (encode i)) safe _
  | started idle passes eq => exact eq ▸ started_linesSafe passes (safe.allReleased (by rw [idle]; rfl))
  | running step => exact step.linesSafe safe

end Lines

/-- Settles O50: CLR's steps keep the two pins in their expected modes and touch no other, fault entry and
reset release every pin, and no other turn touches one. -/
theorem stepKeepsLinesSafe : Obligations.StepKeepsLinesSafe := by
  intro s t safe h
  have scheduled : ∀ r, (s.withSchedule r).LinesSafe := fun _ => safe
  cases step_next_cases s t h with
  | running i r _ _ runs => exact exec_linesSafe runs (scheduled r)
  | accepted i w r _ _ _ runs => exact exec_linesSafe runs (scheduled r)
  | quiet r _ eq => exact eq ▸ safe
  | concurrent w r _ _ eq => exact eq ▸ (scheduled r).raiseFault _
  | reserved w r _ _ eq =>
    exact eq ▸ State.LinesSafe.raiseFault (s := (s.withSchedule r).latch w) safe _
  | read n v r _ eq => exact eq ▸ safe
  | init r _ _ eq => exact eq ▸ safe
  | reset r _ eq => exact eq ▸ State.linesSafe_reset

/-- Settles O51: outside CLR no mode is expected, and where a line is sampled `INPUT_PULLUP` is, of both. -/
theorem safeLinesAreReleased : Obligations.SafeLinesAreReleased := by
  intro s safe
  refine ⟨fun notClear => safe.allReleased (expectedModes_of_not_clear notClear), fun sampling => ?_⟩
  have pulledUp : expectedModes s.fsm = (some .inputPullup, some .inputPullup) := by
    obtain h | h | h | h | h := sampling <;> rw [h] <;> rfl
  obtain ⟨-, sda, scl, -⟩ := safe
  rw [pulledUp] at sda scl
  exact ⟨sda _ rfl, scl _ rfl⟩

end Sys2Proof.Machine

namespace Sys2Proof.Machine

/-! ## What CLR leaves unchanged (R183, R219) -/

/-- What CLR never writes, beside the parameters and the address: the read datapath, the schedule, the
Transport's answers and the Host's record. -/
structure Unrelated where
  acc : Word
  buf : Vector Byte 4
  idx : BitVec 3
  schedule : List Turn
  countAnswers : List Nat
  byteAnswers : List Byte
  reads : List (Nat × Word)

def State.unrelated (s : State) : Unrelated :=
  ⟨s.acc, s.buf, s.idx, s.schedule, s.countAnswers, s.byteAnswers, s.reads⟩

section ClrFrame
variable {s t : State} {sda scl : Byte}

theorem State.sample_unrelated (s : State) (p : Byte) : (s.sample p).2.unrelated = s.unrelated := by
  rw [State.sample_state]
  rfl

theorem handOver_unrelated (s : State) : (handOver s).unrelated = s.unrelated := by
  rw [handOver_eq]
  rfl

theorem checkScl_unrelated (s : State) : (checkScl s).unrelated = s.unrelated := by
  unfold checkScl
  split <;> exact s.sample_unrelated s.sclPin

theorem pulseLoop_unrelated (s : State) : (pulseLoop s).unrelated = s.unrelated := by
  unfold pulseLoop
  split_ifs <;> rfl

theorem stretchTest_unrelated (s : State) : (stretchTest s).unrelated = s.unrelated := by
  unfold stretchTest
  split_ifs <;> rfl

theorem ClrStep.unrelated_eq (h : ClrStep s t) : t.unrelated = s.unrelated := by
  cases h
  case cbInit => exact handOver_unrelated s
  case cbChkScl => exact checkScl_unrelated s
  case cbChkSda => exact s.sample_unrelated s.sdaPin
  case cbLoop => exact pulseLoop_unrelated s
  case cbStrChk => exact s.sample_unrelated s.sclPin
  case cbStrTest => exact stretchTest_unrelated s
  case cbStrSample => exact s.sample_unrelated s.sclPin
  case cbRecheckSda => exact s.sample_unrelated s.sdaPin
  all_goals rfl

/-- The accept step of CLR writes no pin, no result and not `xport_ready`, whether it starts CLR or faults. -/
theorem exec_clr_accept_frame (h : exec (.clr sda scl) s = .next t) (idle : s.fsm = .idle) :
    t.pinMode = s.pinMode ∧ t.xportReady = s.xportReady ∧ t.readPart = s.readPart ∧
      t.unrelated = s.unrelated := by
  cases exec_next_cases _ s t h with
  | ignored _ eq => exact eq ▸ ⟨rfl, rfl, rfl, rfl⟩
  | rejected _ _ eq =>
    rw [State.raiseFault_of_not_clear _ _
      (by rw [State.latch_fsm, idle]; exact Family.noConfusion)] at eq
    exact eq ▸ ⟨rfl, rfl, rfl, rfl⟩
  | started _ _ eq => exact eq ▸ ⟨rfl, rfl, rfl, rfl⟩
  | running step => exact absurd idle (s.busy_eq_true.mp step.busy).1

/-- After accept, or in `FAULT`, the step of CLR writes nothing unrelated and no pin but its two. -/
theorem exec_clr_frame (h : exec (.clr sda scl) s = .next t) (notIdle : s.fsm ≠ .idle) :
    t.unrelated = s.unrelated ∧ ∀ p, p ≠ s.sdaPin → p ≠ s.sclPin → t.modeOf p = s.modeOf p := by
  cases exec_next_cases _ s t h with
  | ignored _ eq => exact eq ▸ ⟨rfl, fun _ _ _ => rfl⟩
  | rejected idle _ _ => exact absurd idle notIdle
  | started idle _ _ => exact absurd idle notIdle
  | running step =>
    exact ⟨ClrStep.unrelated_eq step, fun _ notSda notScl => ClrStep.modeOf_other step notSda notScl⟩

end ClrFrame

/-- Settles O36: the accept step writes only what is latched or faulted, and every later step only what the
rows of R185 write. -/
theorem clrFrame : Obligations.ClrFrame := by
  intro sda scl s t h
  obtain ⟨devaddr, cfgValid⟩ := exec_sameAddress h fun _ => Op.noConfusion
  have params := exec_params h
  by_cases idle : s.fsm = .idle
  · obtain ⟨pins, xportReady, readPart, unrelated⟩ := exec_clr_accept_frame h idle
    obtain ⟨acc, buf, idx, schedule, counts, bytes, reads⟩ := Unrelated.mk.inj unrelated
    exact ⟨params, devaddr, cfgValid, acc, buf, idx, schedule, counts, bytes, reads,
      fun p _ _ => State.modeOf_congr pins p, fun _ => ⟨pins, xportReady,
        congrArg ReadPart.result readPart, congrArg ReadPart.resultValid readPart⟩, absurd idle⟩
  · obtain ⟨unrelated, others⟩ := exec_clr_frame h idle
    obtain ⟨acc, buf, idx, schedule, counts, bytes, reads⟩ := Unrelated.mk.inj unrelated
    obtain ⟨cmd, _, _, faultCause, sdaPin, sclPin⟩ := Standing.mk.inj (exec_standing h idle)
    exact ⟨params, devaddr, cfgValid, acc, buf, idx, schedule, counts, bytes, reads, others,
      (absurd · idle), fun _ => ⟨cmd, faultCause, sdaPin, sclPin⟩⟩

/-! ## The steps of CLR (R186 to R209) -/

theorem ClrStep.exec_eq {s t : State} (h : ClrStep s t) (sda scl : Byte) :
    exec (.clr sda scl) s = .next t :=
  RunningStep.exec_eq (i := .clr sda scl) h

/-- Settles O24: the row `CB_INIT`. -/
theorem clrHandsOver : Obligations.ClrHandsOver := fun s sda scl h =>
  handOver_eq s ▸ ClrStep.exec_eq (.cbInit h) sda scl

/-- Settles O25: the rows `CB_REL_SDA`, `CB_REL_SCL` and `CB_SETTLE`. -/
theorem clrReleasesAndSettles : Obligations.ClrReleasesAndSettles := fun _ sda scl =>
  ⟨fun h => ClrStep.exec_eq (.cbRelSda h) sda scl, fun h => ClrStep.exec_eq (.cbRelScl h) sda scl,
    fun h => ClrStep.exec_eq (.cbSettle h) sda scl⟩

/-- Settles O26: the rows `CB_CHK_SCL` and `CB_CHK_SDA`. -/
theorem clrChecksTheLines : Obligations.ClrChecksTheLines := fun s sda scl =>
  ⟨fun h => ClrStep.exec_eq (.cbChkScl h) sda scl, fun h => ClrStep.exec_eq (.cbChkSda h) sda scl,
    s.sample_history⟩

/-- Settles O27: the row `CB_LOOP`. -/
theorem clrLoopTest : Obligations.ClrLoopTest := fun _ sda scl h =>
  ClrStep.exec_eq (.cbLoop h) sda scl

/-- Settles O28: the rows `CB_PULSE_LOW` to `CB_HOLD_HIGH`, and the bounds of their holds. -/
theorem clrDrivesOnePulse : Obligations.ClrDrivesOnePulse := fun _ sda scl =>
  ⟨fun h => ClrStep.exec_eq (.cbPulseLow h) sda scl, fun h => ClrStep.exec_eq (.cbHoldLow h) sda scl,
    fun h => ClrStep.exec_eq (.cbPulseRel h) sda scl, fun h => ClrStep.exec_eq (.cbHoldHigh h) sda scl,
    Config.lt_overFiveMicroseconds_add _, Config.lt_overFiveMicroseconds_add _⟩

/-- Settles O29: the rows `CB_STR_CHK` to `CB_RECHECK_SDA`. -/
theorem clrWaitsForScl : Obligations.ClrWaitsForScl := fun s sda scl =>
  ⟨fun h => ClrStep.exec_eq (.cbStrChk h) sda scl, fun h => ClrStep.exec_eq (.cbStrTest h) sda scl,
    fun h => ClrStep.exec_eq (.cbStrWait h) sda scl, fun h => ClrStep.exec_eq (.cbStrSample h) sda scl,
    fun h => ClrStep.exec_eq (.cbRecheckSda h) sda scl, rfl, s.sample_history⟩

/-- Settles O30: the rows `CB_START` to `CB_STOP_HOLD`, and the bound of the hold. -/
theorem clrClearsTheBus : Obligations.ClrClearsTheBus := fun _ sda scl =>
  ⟨fun h => ClrStep.exec_eq (.cbStart h) sda scl, fun h => ClrStep.exec_eq (.cbStartHold h) sda scl,
    fun h => ClrStep.exec_eq (.cbStop h) sda scl, fun h => ClrStep.exec_eq (.cbStopHold h) sda scl,
    Config.lt_overFiveMicroseconds_add _⟩

/-- Settles O31: the rows `CB_FIN_SDA` and `CB_FIN_SCL`, of which the last records two events. -/
theorem clrReleasesAndReports : Obligations.ClrReleasesAndReports := by
  intro s sda scl
  refine ⟨fun h => ClrStep.exec_eq (.cbFinSda h) sda scl, fun h => ?_⟩
  rw [ClrStep.exec_eq (.cbFinScl h), reportStatus]
  simp [State.setMode, State.finish, State.emit, State.goto]

end Sys2Proof.Machine

namespace Sys2Proof.Machine

/-! ## The Environment's answers, listed or free (R42; log entry 5) -/

/-- The Environment's record: the answers listed, and the count of free values drawn. -/
def State.environment (s : State) : List Level × Nat := (s.levelAnswers, s.freeDraws)

/-- The Environment's record after one answer. -/
def afterDraw : List Level × Nat → List Level × Nat
  | (listed, draws) => (listed.tail, if listed = [] then draws + 1 else draws)

/-- The Environment's next answers are these. -/
def Foretells (e : List Level × Nat) : List Level → Prop
  | [] => True
  | lv :: rest => e.1.headD (Config.freeLevel e.2) = lv ∧ Foretells (afterDraw e) rest

theorem foretells_listed (listed : List Level) (draws : Nat) : Foretells (listed, draws) listed := by
  induction listed with
  | nil => trivial
  | cons lv rest ih => exact ⟨rfl, ih⟩

/-- Whatever the record, so many answers will come. -/
theorem exists_foretells (n : Nat) (e : List Level × Nat) :
    ∃ samples : List Level, samples.length = n ∧ Foretells e samples := by
  induction n generalizing e with
  | zero => exact ⟨[], rfl, trivial⟩
  | succ n ih =>
    obtain ⟨rest, length, foretold⟩ := ih (afterDraw e)
    exact ⟨_ :: rest, congrArg Nat.succ length, rfl, foretold⟩

/-- The states whose step samples a line (R190, R191, R199, R202, R203). -/
def Fsm.sampling : Fsm → Bool
  | .cbChkScl | .cbChkSda | .cbStrChk | .cbStrSample | .cbRecheckSda => true
  | _ => false

section Environment
variable {s t : State}

theorem State.sample_environment (s : State) (p : Byte) :
    (s.sample p).2.environment = afterDraw s.environment := by
  rw [State.sample_state]
  rfl

theorem handOver_environment (s : State) : (handOver s).environment = s.environment := by
  rw [handOver_eq]
  rfl

theorem checkScl_environment (s : State) : (checkScl s).environment = afterDraw s.environment := by
  unfold checkScl
  split <;> exact s.sample_environment s.sclPin

theorem pulseLoop_environment (s : State) : (pulseLoop s).environment = s.environment := by
  unfold pulseLoop
  split_ifs <;> rfl

theorem stretchTest_environment (s : State) : (stretchTest s).environment = s.environment := by
  unfold stretchTest
  split_ifs <;> rfl

theorem ClrStep.environment_eq (h : ClrStep s t) :
    t.environment = if s.fsm.sampling then afterDraw s.environment else s.environment := by
  cases h
  case cbInit h => rw [h]; exact handOver_environment s
  case cbChkScl h => rw [h]; exact checkScl_environment s
  case cbChkSda h => rw [h]; exact s.sample_environment s.sdaPin
  case cbLoop h => rw [h]; exact pulseLoop_environment s
  case cbStrChk h => rw [h]; exact s.sample_environment s.sclPin
  case cbStrTest h => rw [h]; exact stretchTest_environment s
  case cbStrSample h => rw [h]; exact s.sample_environment s.sclPin
  case cbRecheckSda h => rw [h]; exact s.sample_environment s.sdaPin
  all_goals rw [‹s.fsm = _›]; rfl

end Environment

/-! ## An undisturbed CLR -/

section Ready
variable {s t : State}

theorem ClrStep.cmd_eq (h : ClrStep s t) : t.cmd = s.cmd :=
  congrArg Standing.cmd h.standing_eq

@[simp] theorem State.sample_xportReady (s : State) (p : Byte) :
    (s.sample p).2.xportReady = s.xportReady := by
  rw [State.sample_state]

theorem checkScl_xportReady (s : State) : (checkScl s).xportReady = s.xportReady := by
  unfold checkScl
  split <;> exact s.sample_xportReady s.sclPin

theorem pulseLoop_xportReady (s : State) : (pulseLoop s).xportReady = s.xportReady := by
  unfold pulseLoop
  split_ifs <;> rfl

theorem stretchTest_xportReady (s : State) : (stretchTest s).xportReady = s.xportReady := by
  unfold stretchTest
  split_ifs <;> rfl

/-- Only the first step of CLR writes `xport_ready` (R186). -/
theorem ClrStep.xportReady_eq (h : ClrStep s t) (notFirst : s.fsm ≠ .cbInit) :
    t.xportReady = s.xportReady := by
  cases h
  case cbInit h => exact absurd h notFirst
  case cbChkScl => exact checkScl_xportReady s
  case cbChkSda => exact s.sample_xportReady s.sdaPin
  case cbLoop => exact pulseLoop_xportReady s
  case cbStrChk => exact s.sample_xportReady s.sclPin
  case cbStrTest => exact stretchTest_xportReady s
  case cbStrSample => exact s.sample_xportReady s.sclPin
  case cbRecheckSda => exact s.sample_xportReady s.sdaPin
  all_goals rfl

/-- From its first step on CLR keeps `xport_ready` at 0 (R186). -/
theorem ClrStep.xportReady_eq_false (h : ClrStep s t)
    (handedOver : s.fsm = .cbInit ∨ s.xportReady = false) : t.xportReady = false := by
  by_cases first : s.fsm = .cbInit
  · cases h
    case cbInit => rfl
    all_goals simp_all
  · exact (h.xportReady_eq first).trans (handedOver.resolve_left first)

end Ready

/-- The latched CLR runs undisturbed with the parameters `p`, its pins are as expected, the hand-over is
done or next, and the Environment's next answers are `samples`. -/
structure Recovering (p : Params) (s : State) (samples : List Level) : Prop where
  params : s.params = p
  word : ∃ sda scl, s.cmd = encode (.clr sda scl)
  quiet : s.schedule = []
  fit : s.PinsFit
  handedOver : s.fsm = .cbInit ∨ s.xportReady = false
  foretold : Foretells s.environment samples

/-- The answers still to come after the step from a state. -/
def Fsm.samplesLeft (f : Fsm) (samples : List Level) : List Level :=
  if f.sampling then samples.tail else samples

section Recovering
variable {p : Params} {s t : State} {samples : List Level}

theorem Foretells.afterStep {e : List Level × Nat} (foretold : Foretells e samples) (f : Fsm) :
    Foretells (if f.sampling then afterDraw e else e) (f.samplesLeft samples) := by
  unfold Fsm.samplesLeft
  split
  · cases samples with
    | nil => trivial
    | cons lv rest => exact foretold.2
  · exact foretold

theorem Recovering.next (h : Recovering p s samples) (step : ClrStep s t) :
    Recovering p t (s.fsm.samplesLeft samples) where
  params := step.params_eq.trans h.params
  word := step.cmd_eq ▸ h.word
  quiet := (congrArg Unrelated.schedule step.unrelated_eq).trans h.quiet
  fit := step.pinsFit h.fit
  handedOver := .inr (step.xportReady_eq_false h.handedOver)
  foretold := step.environment_eq ▸ h.foretold.afterStep s.fsm

theorem Recovering.runsTo (h : Recovering p s samples) (step : ClrStep s t) : RunsTo 1 s t := by
  obtain ⟨sda, scl, word⟩ := h.word
  exact .running (i := .clr sda scl) word h.quiet step

theorem expectedModes_of_sampling {f : Fsm} (h : f.sampling = true) :
    expectedModes f = (some .inputPullup, some .inputPullup) := by
  revert h
  cases f <;> decide

/-- Where CLR samples a line neither pin is driven, so the sample is the Environment's (R42, R215). -/
theorem Recovering.sample_sda {lv : Level} {rest : List Level} (h : Recovering p s (lv :: rest))
    (sampling : s.fsm.sampling = true) : (s.sample s.sdaPin).1 = lv := by
  have pulledUp := h.fit.sda
  rw [expectedModes_of_sampling sampling] at pulledUp
  rw [State.sample_answer, pulledUp _ rfl]
  exact h.foretold.1

theorem Recovering.sample_scl {lv : Level} {rest : List Level} (h : Recovering p s (lv :: rest))
    (sampling : s.fsm.sampling = true) : (s.sample s.sclPin).1 = lv := by
  have pulledUp := h.fit.scl
  rw [expectedModes_of_sampling sampling] at pulledUp
  rw [State.sample_answer, pulledUp _ rfl]
  exact h.foretold.1

end Recovering

/-! ## What a CLR comes to -/

/-- How many clock pulses the step of CLR from a state begins (R195). -/
def pulsesBegun : Fsm → Nat
  | .cbPulseLow => 1
  | _ => 0

/-- How many bus clears the step of CLR from a state begins (R204). -/
def clearsBegun : Fsm → Nat
  | .cbStart => 1
  | _ => 0

/-- `t` is `IDLE` with the status `st` reported and both pins of `s` released; since `s` the events `es` were
recorded, with so many pulses on SCL and bus clears on SDA among them. -/
structure Reports (s t : State) (es : List Event) (st : BitVec 2) (pulses clears : Nat) : Prop where
  fsm : t.fsm = .idle
  result : t.result = st.setWidth 32
  resultValid : t.resultValid = true
  xportReady : t.xportReady = false
  history : t.history = s.history ++ es
  last : es.getLast? = some (.done .clr (some t.result))
  pulses : es.countP (Event.drives s.sclPin) = pulses
  clears : es.countP (Event.drives s.sdaPin) = clears
  sda : t.modeOf s.sdaPin = .input
  scl : t.modeOf s.sclPin = .input

/-- Within so many steps the CLR that runs in `s` reports the status, after so many pulses and bus clears. -/
def Ends (s : State) (bound : Nat) (st : BitVec 2) (pulses clears : Nat) : Prop :=
  ∃ k t es, k ≤ bound ∧ RunsTo k s t ∧ Reports s t es st pulses clears

section Ends
variable {p : Params} {s t u : State} {samples : List Level} {bound pulses clears : Nat} {st : BitVec 2}

/-- What a step of CLR records: of the events that drive a pin, a pulse on SCL or a clear on SDA. -/
theorem ClrStep.recorded (h : ClrStep s t) (differ : s.sdaPin ≠ s.sclPin) :
    ∃ es, t.history = s.history ++ es ∧ es.countP (Event.drives s.sclPin) = pulsesBegun s.fsm ∧
      es.countP (Event.drives s.sdaPin) = clearsBegun s.fsm := by
  cases h
  case cbInit h =>
    exact ⟨if s.params.hasBusController then [.ctrlOff] else [], by rw [handOver_eq],
      by rw [h]; split <;> rfl, by rw [h]; split <;> rfl⟩
  case cbChkScl h => exact ⟨_, checkScl_history s, by rw [h]; rfl, by rw [h]; rfl⟩
  case cbChkSda h => exact ⟨_, checkSda_history s, by rw [h]; rfl, by rw [h]; rfl⟩
  case cbLoop h => exact ⟨[], by simp, by rw [h]; rfl, by rw [h]; rfl⟩
  case cbStrChk h => exact ⟨_, stretchCheck_history s, by rw [h]; rfl, by rw [h]; rfl⟩
  case cbStrTest h => exact ⟨[], by simp, by rw [h]; rfl, by rw [h]; rfl⟩
  case cbStrSample h => exact ⟨_, stretchSample_history s, by rw [h]; rfl, by rw [h]; rfl⟩
  case cbRecheckSda h => exact ⟨_, recheckSda_history s, by rw [h]; rfl, by rw [h]; rfl⟩
  case cbFinScl h =>
    exact ⟨[.mode s.sclPin .input, .done .clr (some (s.st.setWidth 32))], by simp [reportStatus],
      by simp [h, pulsesBegun, Event.drives], by simp [h, clearsBegun, Event.drives]⟩
  case cbSettle h | cbHoldLow h | cbHoldHigh h | cbStrWait h | cbStartHold h | cbStopHold h =>
    exact ⟨_, rfl, by rw [h]; rfl, by rw [h]; rfl⟩
  all_goals
    exact ⟨_, rfl, by simp [*, pulsesBegun, Event.drives],
      by simp [*, clearsBegun, Event.drives, differ.symm]⟩

theorem Ends.mono {larger : Nat} (ends : Ends s bound st pulses clears) (le : bound ≤ larger) :
    Ends s larger st pulses clears := by
  obtain ⟨k, t, es, short, run, reports⟩ := ends
  exact ⟨k, t, es, short.trans le, run, reports⟩

theorem Reports.after_step {es : List Event} (reports : Reports t u es st pulses clears)
    (step : ClrStep s t) (differ : s.sdaPin ≠ s.sclPin) :
    ∃ es, Reports s u es st (pulses + pulsesBegun s.fsm) (clears + clearsBegun s.fsm) := by
  obtain ⟨first, history, pulse, clear⟩ := step.recorded differ
  exact ⟨first ++ es, {
    fsm := reports.fsm
    result := reports.result
    resultValid := reports.resultValid
    xportReady := reports.xportReady
    history := by rw [reports.history, history, List.append_assoc]
    last := by rw [List.getLast?_append, reports.last, Option.some_or]
    pulses := by rw [List.countP_append, pulse, ← reports.pulses, step.sclPin_eq, Nat.add_comm]
    clears := by rw [List.countP_append, clear, ← reports.clears, step.sdaPin_eq, Nat.add_comm]
    sda := step.sdaPin_eq ▸ reports.sda
    scl := step.sclPin_eq ▸ reports.scl }⟩

/-- One step of CLR, and what it comes to from there. -/
theorem Ends.of_step {f : Fsm} (running : s.fsm = f) (recovering : Recovering p s samples)
    (step : ClrStep s t)
    (ends : Recovering p t (f.samplesLeft samples) → Ends t bound st pulses clears) :
    Ends s (bound + 1) st (pulses + pulsesBegun f) (clears + clearsBegun f) := by
  subst running
  obtain ⟨k, u, es, short, run, reports⟩ := ends (recovering.next step)
  obtain ⟨es, reports⟩ := reports.after_step step recovering.fit.differ
  exact ⟨1 + k, u, es, by omega, (recovering.runsTo step).trans run, reports⟩

/-! ### The last two steps, and the bus clear -/

theorem ends_of_cbFinScl (running : s.fsm = .cbFinScl) (recovering : Recovering p s samples)
    (status : s.st = st) : Ends s 1 st 0 0 := by
  have step : ClrStep s (reportStatus s) := .cbFinScl running
  obtain ⟨differ, sda, -⟩ := recovering.fit
  rw [running] at sda
  exact ⟨1, reportStatus s, [.mode s.sclPin .input, .done .clr (some (s.st.setWidth 32))], le_rfl,
    recovering.runsTo step, {
      fsm := rfl
      result := by rw [← status]; rfl
      resultValid := rfl
      xportReady := step.xportReady_eq_false recovering.handedOver
      history := by simp [reportStatus]
      last := rfl
      pulses := by simp [Event.drives]
      clears := by simp [Event.drives]
      sda := by rw [reportStatus_modeOf, if_neg differ]; exact sda _ rfl
      scl := by rw [reportStatus_modeOf, if_pos rfl] }⟩

theorem ends_of_cbFinSda (running : s.fsm = .cbFinSda) (recovering : Recovering p s samples)
    (status : s.st = st) : Ends s 2 st 0 0 :=
  .of_step running recovering (.cbFinSda running) fun next => ends_of_cbFinScl rfl next status

/-- The bus clear ends with status 0, whatever is on the lines (R204 to R207). -/
theorem ends_of_cbStart (running : s.fsm = .cbStart) (recovering : Recovering p s samples) :
    Ends s 6 0 0 1 :=
  .of_step (clears := 0) running recovering (.cbStart running) fun start =>
  .of_step rfl start (.cbStartHold rfl) fun held =>
  .of_step rfl held (.cbStop rfl) fun stop =>
  .of_step rfl stop (.cbStopHold rfl) fun stopped => ends_of_cbFinSda rfl stopped rfl

/-! ### The stretch wait (R199 to R202) -/

theorem stretchTest_of_high (high : s.sclLow = false) : stretchTest s = s.goto .cbRecheckSda := by
  rw [stretchTest, if_pos high]

theorem stretchTest_of_spent (low : s.sclLow = true) (spent : s.polls = 0) :
    stretchTest s = { s with st := 2 }.goto .cbFinSda := by
  rw [stretchTest, if_neg (by simp [low]), if_pos spent]

theorem stretchTest_of_left (low : s.sclLow = true) (left : s.polls ≠ 0) :
    stretchTest s = { s with polls := s.polls - 1 }.goto .cbStrWait := by
  rw [stretchTest, if_neg (by simp [low]), if_neg left]

theorem stretchSample_sclLow (s : State) :
    (stretchSample s).sclLow = ((s.sample s.sclPin).1 == .low) := rfl

theorem stretchCheck_sclLow (s : State) :
    (stretchCheck s).sclLow = ((s.sample s.sclPin).1 == .low) := rfl

theorem stretchSample_polls (s : State) : (stretchSample s).polls = s.polls := by simp [stretchSample]

theorem stretchSample_retries (s : State) : (stretchSample s).retries = s.retries := by
  simp [stretchSample]

theorem stretchCheck_polls (s : State) : (stretchCheck s).polls = s.params.nStretchPolls := rfl

theorem stretchCheck_retries (s : State) : (stretchCheck s).retries = s.retries := by
  simp [stretchCheck]

/-- Where the stretch wait leads: to the re-check of SDA once SCL came HIGH, and else to the exit with
status 2. -/
def StretchLeadsTo (came : Bool) (retries : BitVec 5) (t : State) : Prop :=
  t.retries = retries ∧ if came then t.fsm = .cbRecheckSda else t.fsm = .cbFinSda ∧ t.st = 2

theorem stretchOutcome_high {q : Nat} {rest later : List Level} {came : Bool}
    (outcome : stretchOutcome q (.high :: rest) = some (came, later)) : came = true ∧ later = rest := by
  simpa [stretchOutcome, eq_comm] using outcome

/-- With SCL HIGH the stretch wait is over (R200). -/
theorem ends_of_scl_high (running : s.fsm = .cbStrTest) (recovering : Recovering p s samples)
    (high : s.sclLow = false)
    (ends : ∀ t, StretchLeadsTo true s.retries t → Recovering p t samples →
      Ends t bound st pulses clears) :
    Ends s (bound + 1) st pulses clears := by
  have test : ClrStep s (stretchTest s) := .cbStrTest running
  rw [stretchTest_of_high high] at test
  exact .of_step running recovering test (ends _ ⟨rfl, rfl⟩)

/-- The stretch wait with `q` polls left, once the sample `lv` of SCL has been taken: what CLR comes to is what
it comes to from where the wait leads. -/
theorem ends_of_cbStrTest {q : Nat} {lv : Level} {rest later : List Level} {came : Bool}
    (running : s.fsm = .cbStrTest) (recovering : Recovering p s rest) (line : s.sclLow = (lv == .low))
    (left : s.polls.toNat = q) (outcome : stretchOutcome q (lv :: rest) = some (came, later))
    (ends : ∀ t, StretchLeadsTo came s.retries t → Recovering p t later →
      Ends t bound st pulses clears) :
    Ends s (bound + 1 + 3 * q) st pulses clears := by
  have test : ClrStep s (stretchTest s) := .cbStrTest running
  induction q generalizing s lv rest with
  | zero =>
    cases lv with
    | high =>
      obtain ⟨rfl, rfl⟩ := stretchOutcome_high outcome
      exact ends_of_scl_high running recovering line ends
    | low =>
      obtain ⟨rfl, rfl⟩ : false = came ∧ rest = later := by simpa [stretchOutcome] using outcome
      rw [stretchTest_of_spent line (BitVec.eq_of_toNat_eq left)] at test
      exact .of_step running recovering test (ends _ ⟨rfl, rfl, rfl⟩)
  | succ q ih =>
    cases lv with
    | high =>
      obtain ⟨rfl, rfl⟩ := stretchOutcome_high outcome
      exact (ends_of_scl_high running recovering line ends).mono (by omega)
    | low =>
      have unspent : s.polls ≠ 0 := fun spent => by simp [spent] at left
      have counted : (s.polls - 1).toNat = q := by bv_omega
      rw [stretchTest_of_left line unspent] at test
      cases rest with
      | nil => simp [stretchOutcome] at outcome
      | cons next rest =>
        exact .of_step running recovering test fun waiting =>
          .of_step rfl waiting (.cbStrWait rfl) fun sampling =>
          .of_step rfl sampling (.cbStrSample rfl) fun sampled =>
          ih rfl sampled (by rw [stretchSample_sclLow, sampling.sample_scl rfl])
            (by rw [stretchSample_polls]; exact counted) outcome
            (by rw [stretchSample_retries]; exact ends) (.cbStrTest rfl)

/-! ### The pulse loop (R192 to R203) -/

theorem pulseLoop_of_high (high : s.sdaLow = false) : pulseLoop s = s.goto .cbStart := by
  rw [pulseLoop, if_pos high]

theorem pulseLoop_of_spent (low : s.sdaLow = true) (spent : s.retries = 0) :
    pulseLoop s = { s with st := 3 }.goto .cbFinSda := by
  rw [pulseLoop, if_neg (by simp [low]), if_pos spent]

theorem pulseLoop_of_left (low : s.sdaLow = true) (left : s.retries ≠ 0) :
    pulseLoop s = { s with retries := s.retries - 1 }.goto .cbPulseLow := by
  rw [pulseLoop, if_neg (by simp [low]), if_neg left]

/-- With SDA HIGH the loop ends in the bus clear (R192). -/
theorem ends_of_sda_high (running : s.fsm = .cbLoop) (recovering : Recovering p s samples)
    (high : s.sdaLow = false) : Ends s 7 0 0 1 := by
  have test : ClrStep s (pulseLoop s) := .cbLoop running
  rw [pulseLoop_of_high high] at test
  exact .of_step running recovering test (ends_of_cbStart rfl)

/-- With SDA LOW and no retries left the loop ends with status 3 (R192). -/
theorem ends_of_retries_spent (running : s.fsm = .cbLoop) (recovering : Recovering p s samples)
    (low : s.sdaLow = true) (spent : s.retries = 0) : Ends s 3 3 0 0 := by
  have test : ClrStep s (pulseLoop s) := .cbLoop running
  rw [pulseLoop_of_spent low spent] at test
  exact .of_step running recovering test fun next => ends_of_cbFinSda rfl next rfl

/-- One clock pulse and its stretch wait (R192, R195 to R199): what CLR comes to is one pulse more than what
it comes to from where the wait leads. -/
theorem ends_of_pulse {rest : List Level} {came : Bool}
    (running : s.fsm = .cbLoop) (recovering : Recovering p s samples) (low : s.sdaLow = true)
    (left : s.retries ≠ 0)
    (outcome : stretchOutcome p.nStretchPolls.toNat samples = some (came, rest))
    (ends : ∀ t, StretchLeadsTo came (s.retries - 1) t → Recovering p t rest →
      Ends t bound st pulses clears) :
    Ends s (bound + 7 + 3 * p.nStretchPolls.toNat) st (pulses + 1) clears := by
  have test : ClrStep s (pulseLoop s) := .cbLoop running
  rw [pulseLoop_of_left low left] at test
  cases samples with
  | nil => simp [stretchOutcome] at outcome
  | cons lv samples =>
    have pulse : Ends s (bound + 1 + 3 * p.nStretchPolls.toNat + 6) st (pulses + 1) clears :=
      .of_step (pulses := pulses + 1) running recovering test fun low =>
      .of_step rfl low (.cbPulseLow rfl) fun held =>
      .of_step rfl held (.cbHoldLow rfl) fun release =>
      .of_step rfl release (.cbPulseRel rfl) fun released =>
      .of_step rfl released (.cbHoldHigh rfl) fun sampling =>
      .of_step rfl sampling (.cbStrChk rfl) fun sampled =>
      ends_of_cbStrTest rfl sampled (by rw [stretchCheck_sclLow, sampling.sample_scl rfl])
        (by rw [stretchCheck_polls, sampling.params]) outcome
        (by rw [stretchCheck_retries]; exact ends)
    exact pulse.mono (by omega)

/-- The re-check of SDA takes the Environment's answer (R203). -/
theorem recheckSda_of_sample {lv : Level} {rest : List Level} (running : s.fsm = .cbRecheckSda)
    (recovering : Recovering p s (lv :: rest)) : (recheckSda s).sdaLow = (lv == .low) := by
  rw [← recovering.sample_sda (by rw [running]; rfl)]
  rfl

theorem recheckSda_retries (s : State) : (recheckSda s).retries = s.retries := by
  simp [recheckSda]

/-- The status 0 exit is the one that clears the bus (R204). -/
def clearsOf (st : BitVec 2) : Nat := if st = 0 then 1 else 0

/-- The pulse loop drives at least no pulse and at most one for each retry left. -/
theorem pulseOutcome_bounds {polls r driven total : Nat}
    (outcome : pulseOutcome polls r driven samples = some (st, total)) :
    driven ≤ total ∧ total ≤ driven + r := by
  induction r generalizing samples driven with
  | zero =>
    obtain ⟨rfl, rfl⟩ : 3 = st ∧ driven = total := by simpa [pulseOutcome] using outcome
    exact ⟨le_rfl, le_rfl⟩
  | succ r ih =>
    rw [pulseOutcome] at outcome
    split at outcome
    · cases outcome
    · obtain ⟨rfl, rfl⟩ : 2 = st ∧ driven + 1 = total := by simpa using outcome
      omega
    · cases outcome
    · obtain ⟨rfl, rfl⟩ : 0 = st ∧ driven + 1 = total := by simpa using outcome
      omega
    · obtain ⟨lower, upper⟩ := ih outcome
      omega

/-- The pulse loop, once SDA has been found LOW: it comes to what `pulseOutcome` says of the samples. -/
theorem ends_of_cbLoop {r driven : Nat}
    (running : s.fsm = .cbLoop) (recovering : Recovering p s samples) (low : s.sdaLow = true)
    (left : s.retries.toNat = r)
    (outcome : pulseOutcome p.nStretchPolls.toNat r driven samples = some (st, driven + pulses)) :
    Ends s (7 + r * (8 + 3 * p.nStretchPolls.toNat)) st pulses (clearsOf st) := by
  induction r generalizing s samples driven pulses with
  | zero =>
    obtain ⟨rfl, rfl⟩ : 3 = st ∧ pulses = 0 := by simpa [pulseOutcome] using outcome
    exact (ends_of_retries_spent running recovering low (BitVec.eq_of_toNat_eq left)).mono (by omega)
  | succ r ih =>
    have unspent : s.retries ≠ 0 := fun spent => by simp [spent] at left
    have counted : (s.retries - 1).toNat = r := by bv_omega
    rw [Nat.add_one_mul r]
    rw [pulseOutcome] at outcome
    split at outcome
    · cases outcome
    · next stretch =>
      obtain ⟨rfl, rfl⟩ : 2 = st ∧ 1 = pulses := by simpa using outcome
      have ends := ends_of_pulse (bound := 2) (pulses := 0) running recovering low unspent stretch
        fun t ⟨_, exits, status⟩ next => ends_of_cbFinSda exits next status
      exact ends.mono (by omega)
    · cases outcome
    · next stretch =>
      obtain ⟨rfl, rfl⟩ : 0 = st ∧ 1 = pulses := by simpa using outcome
      have ends := ends_of_pulse (bound := 8) (pulses := 0) running recovering low unspent stretch
        fun t ⟨_, rechecks⟩ next => .of_step rechecks next (.cbRecheckSda rechecks) fun again =>
          ends_of_sda_high rfl again (recheckSda_of_sample rechecks next)
      exact ends.mono (by omega)
    · next rest stretch =>
      obtain ⟨more, rfl⟩ : ∃ more, pulses = more + 1 :=
        Nat.exists_eq_add_one.mpr (by have := (pulseOutcome_bounds outcome).1; omega)
      rw [show driven + (more + 1) = driven + 1 + more by omega] at outcome
      have ends := ends_of_pulse (pulses := more) running recovering low unspent stretch
        fun t ⟨retries, rechecks⟩ next => .of_step rechecks next (.cbRecheckSda rechecks) fun again =>
          ih rfl again (recheckSda_of_sample rechecks next)
            (by rw [recheckSda_retries, retries, counted]) outcome
      exact ends.mono (by omega)

/-! ### The whole of CLR -/

/-- The hand-over, the releases and the settle delay lead to the first sample (R186 to R189). -/
theorem ends_of_opening (running : s.fsm = .cbInit) (recovering : Recovering p s samples)
    (ends : ∀ t, t.fsm = .cbChkScl → Recovering p t samples → Ends t bound st pulses clears) :
    Ends s (bound + 4) st pulses clears :=
  .of_step running recovering (.cbInit running) fun relSda =>
  .of_step rfl relSda (.cbRelSda rfl) fun relScl =>
  .of_step rfl relScl (.cbRelScl rfl) fun settle =>
  .of_step rfl settle (.cbSettle rfl) (ends _ rfl)

theorem checkScl_of_low (low : (s.sample s.sclPin).1 = .low) :
    checkScl s = { (s.sample s.sclPin).2 with st := 1 }.goto .cbFinSda := by
  rw [checkScl, if_pos low]

theorem checkScl_of_high (high : (s.sample s.sclPin).1 = .high) :
    checkScl s = (s.sample s.sclPin).2.goto .cbChkSda := by
  rw [checkScl, if_neg (by simp [high])]

/-- SCL LOW at its first sample is the exit with status 1 (R190). -/
theorem ends_of_scl_stuck {rest : List Level} (running : s.fsm = .cbChkScl)
    (recovering : Recovering p s (.low :: rest)) : Ends s 3 1 0 0 := by
  have check : ClrStep s (checkScl s) := .cbChkScl running
  rw [checkScl_of_low (recovering.sample_scl (by rw [running]; rfl))] at check
  exact .of_step running recovering check fun next => ends_of_cbFinSda rfl next rfl

/-- SCL HIGH at its first sample leads to the first sample of SDA (R190, R191). -/
theorem ends_of_scl_free {lv : Level} {rest : List Level} (running : s.fsm = .cbChkScl)
    (recovering : Recovering p s (.high :: lv :: rest))
    (ends : ∀ t, t.fsm = .cbLoop → t.sdaLow = (lv == .low) → t.retries = p.nClockPulses →
      Recovering p t rest → Ends t bound st pulses clears) :
    Ends s (bound + 2) st pulses clears := by
  have check : ClrStep s (checkScl s) := .cbChkScl running
  rw [checkScl_of_high (recovering.sample_scl (by rw [running]; rfl))] at check
  exact .of_step running recovering check fun next =>
    .of_step rfl next (.cbChkSda rfl) (ends _ rfl
      (by rw [← next.sample_sda rfl]; rfl) (by rw [← next.params]; rfl))

/-- CLR from its first step: it comes to what `clrOutcome` says of the samples (R211). -/
theorem ends_of_cbInit (running : s.fsm = .cbInit) (recovering : Recovering p s samples)
    (outcome : clrOutcome p samples = some (st, pulses)) :
    Ends s p.maxClrSteps st pulses (clearsOf st) := by
  unfold Params.maxClrSteps
  unfold clrOutcome at outcome
  split at outcome
  · obtain ⟨rfl, rfl⟩ : 1 = st ∧ 0 = pulses := by simpa using outcome
    exact (ends_of_opening running recovering fun _ => ends_of_scl_stuck).mono (by omega)
  · obtain ⟨rfl, rfl⟩ : 0 = st ∧ 0 = pulses := by simpa using outcome
    have ends := ends_of_opening running recovering fun _ checks opened =>
      ends_of_scl_free checks opened fun _ loops high _ next => ends_of_sda_high loops next high
    exact ends.mono (by omega)
  · rw [← Nat.zero_add pulses] at outcome
    have ends := ends_of_opening running recovering fun _ checks opened =>
      ends_of_scl_free checks opened fun _ loops low retries next =>
        ends_of_cbLoop loops next low (congrArg BitVec.toNat retries) outcome
    exact ends.mono (by omega)
  · cases outcome

end Ends

/-! ## Enough answers decide the outcome (R211, R217) -/

section Decided
variable {polls : Nat} {samples : List Level}

/-- One sample and one for each poll decide a stretch wait. -/
theorem exists_stretchOutcome (enough : polls + 1 ≤ samples.length) :
    ∃ came rest, stretchOutcome polls samples = some (came, rest) ∧
      samples.length ≤ rest.length + (polls + 1) := by
  induction polls generalizing samples with
  | zero =>
    match samples, enough with
    | .high :: rest, _ => exact ⟨true, rest, by simp [stretchOutcome], le_rfl⟩
    | .low :: rest, _ => exact ⟨false, rest, by simp [stretchOutcome], le_rfl⟩
  | succ polls ih =>
    match samples, enough with
    | .high :: rest, _ => exact ⟨true, rest, by simp [stretchOutcome], by simp⟩
    | .low :: rest, enough =>
      obtain ⟨came, later, outcome, used⟩ := ih (samples := rest) (Nat.le_of_succ_le_succ enough)
      exact ⟨came, later, by rw [stretchOutcome, outcome], Nat.succ_le_succ used⟩

/-- The samples of a stretch wait and one of SDA, for each retry, decide the pulse loop. -/
theorem exists_pulseOutcome {r driven : Nat} (enough : r * (polls + 2) ≤ samples.length) :
    ∃ st total, pulseOutcome polls r driven samples = some (st, total) := by
  induction r generalizing samples driven with
  | zero => exact ⟨3, driven, by rw [pulseOutcome]⟩
  | succ r ih =>
    rw [Nat.add_one_mul] at enough
    have pulseEnough : polls + 1 ≤ samples.length := by omega
    obtain ⟨came, rest, stretch, used⟩ := exists_stretchOutcome pulseEnough
    rw [pulseOutcome, stretch]
    match came, rest with
    | false, rest => exact ⟨2, driven + 1, rfl⟩
    | true, [] => simp at used; omega
    | true, .high :: rest => exact ⟨0, driven + 1, rfl⟩
    | true, .low :: rest =>
      rw [List.length_cons] at used
      exact ih (by omega)

/-- The two first samples, and those of the pulse loop, decide CLR. -/
theorem exists_clrOutcome {p : Params}
    (enough : p.nClockPulses.toNat * (p.nStretchPolls.toNat + 2) + 2 ≤ samples.length) :
    ∃ st pulses, clrOutcome p samples = some (st, pulses) ∧ pulses ≤ p.nClockPulses.toNat := by
  match samples, enough with
  | .low :: rest, _ => exact ⟨1, 0, by rw [clrOutcome], Nat.zero_le _⟩
  | .high :: .high :: rest, _ => exact ⟨0, 0, by rw [clrOutcome], Nat.zero_le _⟩
  | .high :: .low :: rest, enough =>
    obtain ⟨st, pulses, outcome⟩ :=
      exists_pulseOutcome (driven := 0) (Nat.le_of_add_le_add_right (b := 2) enough)
    exact ⟨st, pulses, outcome, Nat.zero_add p.nClockPulses.toNat ▸ (pulseOutcome_bounds outcome).2⟩

end Decided

/-- In `CB_INIT` no mode is expected yet, so any undisturbed state with a latched CLR and two pins is one
from which CLR recovers. -/
theorem recovering_of_cbInit {s : State} {i : Instr} {samples : List Level} (running : s.fsm = .cbInit)
    (quiet : s.schedule = []) (word : decode s.cmd = .ok i) (isClr : i.op = .clr)
    (differ : s.sdaPin ≠ s.sclPin) (foretold : Foretells s.environment samples) :
    Recovering s.params s samples := by
  obtain ⟨sda, scl, rfl⟩ := Instr.eq_clr_of_op isClr
  exact ⟨rfl, ⟨sda, scl, (encode_of_decode word).symm⟩, quiet,
    State.pinsFit_of_unexpected differ (by rw [running]; rfl), .inl running, foretold⟩

/-- Settles O33: the listed answers are the ones that will come, and CLR ends as `clrOutcome` says. -/
theorem clrOutcomeFollowsTheSamples : Obligations.ClrOutcomeFollowsTheSamples := by
  intro s i st pulses running quiet word isClr differ outcome
  have recovering := recovering_of_cbInit running quiet word isClr differ
    (foretells_listed s.levelAnswers s.freeDraws)
  obtain ⟨k, t, es, -, run, reports⟩ := ends_of_cbInit running recovering outcome
  exact ⟨k, t, es, run, reports.fsm, reports.result, reports.resultValid, reports.history, reports.last,
    reports.pulses, reports.clears, reports.sda, reports.scl⟩

/-- At the values R9 gives, the bound of R218 is 1373. -/
theorem maxClrSteps_of_hasStatedValues {p : Params} (h : p.HasStatedValues) : p.maxClrSteps = 1373 := by
  obtain ⟨pulses, polls, _⟩ := h
  rw [Params.maxClrSteps, pulses, polls]

/-- Settles O34: enough answers will come to decide the outcome, whatever they are. -/
theorem clrTerminates : Obligations.ClrTerminates := by
  intro s i running quiet word isClr differ
  obtain ⟨samples, length, foretold⟩ := exists_foretells
    (s.params.nClockPulses.toNat * (s.params.nStretchPolls.toNat + 2) + 2) s.environment
  obtain ⟨st, pulses, outcome, fewPulses⟩ := exists_clrOutcome length.ge
  obtain ⟨k, t, es, short, run, reports⟩ := ends_of_cbInit running
    (recovering_of_cbInit running quiet word isClr differ foretold) outcome
  have status : t.result.toNat ≤ 3 := by
    rw [reports.result, BitVec.toNat_setWidth_of_le (by decide)]
    exact Nat.le_of_lt_succ st.isLt
  rw [← reports.pulses] at fewPulses
  refine ⟨k, t, es, short, run, reports.fsm, reports.resultValid, status, reports.xportReady,
    reports.history, fewPulses, fun stated => ?_, reports.sda, reports.scl⟩
  have ⟨pulsesStated, _⟩ := stated
  exact ⟨maxClrSteps_of_hasStatedValues stated ▸ short, pulsesStated ▸ fewPulses⟩

end Sys2Proof.Machine

namespace Sys2Proof.Machine

/-! ## CLR with SCL LOW at its first sample (R190) -/

/-- CLR needs no transport, so legal pins pass all its checks (R251). -/
theorem firstFailingCheck_clr {s : State} {sda scl : Byte}
    (legal : (Instr.clr sda scl).wellFormed s.params = true) :
    firstFailingCheck (.clr sda scl) s = .noFault :=
  (firstFailingCheck_eq_noFault _ s).mpr ⟨legal, Bool.noConfusion⟩

section StuckClock
variable {p : Params} {s : State} {samples rest : List Level}

/-- The state in which CLR takes its first sample, if `CB_INIT` was taken in `s`. -/
def State.opened (s : State) : State :=
  (((({ s with
    history := s.history ++ (if s.params.hasBusController then [Event.ctrlOff] else [])
    xportReady := false }.setMode s.sdaPin .inputPullup).setMode s.sclPin .inputPullup).wait
      s.params.tSettle).goto .cbChkScl)

/-- The four steps to the first sample (R186 to R189). -/
theorem Recovering.opening (recovering : Recovering p s samples) (running : s.fsm = .cbInit) :
    RunsTo 4 s s.opened ∧ Recovering p s.opened samples := by
  have handOver : ClrStep s _ := .cbInit running
  have relSda := recovering.next handOver
  have run := recovering.runsTo handOver
  rw [handOver_eq] at relSda run
  rw [running] at relSda
  have relScl := relSda.next (.cbRelSda rfl)
  have settle := relScl.next (.cbRelScl rfl)
  exact ⟨((run.trans (relSda.runsTo (.cbRelSda rfl))).trans (relScl.runsTo (.cbRelScl rfl))).trans
    (settle.runsTo (.cbSettle rfl)), settle.next (.cbSettle rfl)⟩

/-- The state that reports status 1, if the first sample of SCL was taken in `s` and was LOW. -/
def State.stuck (s : State) : State :=
  reportStatus (({ (s.sample s.sclPin).2 with st := 1 }.setMode s.sdaPin .input).goto .cbFinScl)

/-- The three steps from a first sample that is LOW (R190, R208, R209). -/
theorem Recovering.stuckClock (recovering : Recovering p s (.low :: rest)) (running : s.fsm = .cbChkScl) :
    RunsTo 3 s s.stuck := by
  have check : ClrStep s (checkScl s) := .cbChkScl running
  rw [checkScl_of_low (recovering.sample_scl (by rw [running]; rfl))] at check
  have finSda := recovering.next check
  have finScl := finSda.next (.cbFinSda rfl)
  have run := ((recovering.runsTo check).trans (finSda.runsTo (.cbFinSda rfl))).trans
    (finScl.runsTo (.cbFinScl rfl))
  refine run.ends_eq ?_
  simp [State.stuck, State.goto, State.sample_state]

theorem State.opened_history (s : State) :
    s.opened.history = s.history ++ (if s.params.hasBusController then [.ctrlOff] else []) ++
      [.mode s.sdaPin .inputPullup, .mode s.sclPin .inputPullup, .wait s.params.tSettle] := by
  simp [State.opened]

theorem State.modeOf_opened (s : State) {q : Byte} (notSda : q ≠ s.sdaPin) (notScl : q ≠ s.sclPin) :
    s.opened.modeOf q = s.modeOf q := by
  simp only [State.opened, State.modeOf_goto, State.modeOf_wait, State.modeOf_setMode,
    if_neg notSda, if_neg notScl]
  rfl

theorem State.opened_standing (s : State) : s.opened.standing = s.standing := rfl

theorem State.stuck_standing (s : State) : s.stuck.standing = s.standing := s.sample_standing s.sclPin

theorem State.stuck_xportReady (s : State) : s.stuck.xportReady = s.xportReady :=
  s.sample_xportReady s.sclPin

theorem State.stuck_history (s : State) :
    s.stuck.history = s.history ++ [.sample s.sclPin (s.sample s.sclPin).1, .mode s.sdaPin .input,
      .mode s.sclPin .input, .done .clr (some 1)] := by
  simp [State.stuck, reportStatus, State.sample_state]

theorem State.modeOf_stuck (s : State) (q : Byte) :
    s.stuck.modeOf q = if q = s.sclPin ∨ q = s.sdaPin then .input else s.modeOf q := by
  rw [State.stuck, State.sample_state, reportStatus_modeOf, State.modeOf_goto, State.modeOf_setMode, ite_or]
  rfl

/-- What CLR leaves behind if SCL is LOW at its first sample: the modes, and the history of the seven steps. -/
theorem Recovering.stuckRun (recovering : Recovering p s (.low :: rest)) (running : s.fsm = .cbInit) :
    ∃ t, RunsTo 7 s t ∧ t.fsm = .idle ∧ t.result = 1 ∧ t.resultValid = true ∧ t.xportReady = false ∧
      t.standing = s.standing ∧
      (∀ q, t.modeOf q = if q = s.sclPin ∨ q = s.sdaPin then .input else s.modeOf q) ∧
      t.history = s.history ++ (if s.params.hasBusController then [.ctrlOff] else []) ++
        [.mode s.sdaPin .inputPullup, .mode s.sclPin .inputPullup, .wait s.params.tSettle,
         .sample s.sclPin .low, .mode s.sdaPin .input, .mode s.sclPin .input, .done .clr (some 1)] := by
  obtain ⟨opening, opened⟩ := recovering.opening running
  refine ⟨s.opened.stuck, opening.trans (opened.stuckClock rfl), rfl, rfl, rfl, s.opened.stuck_xportReady,
    s.opened.stuck_standing, fun q => ?_, ?_⟩
  · refine (s.opened.modeOf_stuck q).trans (ite_congr rfl (fun _ => rfl) fun other => ?_)
    obtain ⟨notScl, notSda⟩ := not_or.mp other
    exact s.modeOf_opened notSda notScl
  · rw [State.stuck_history, State.opened_history, opened.sample_scl rfl, List.append_assoc]
    rfl

end StuckClock

/-- Settles O32: vector B1. The accept step, and the seven steps with SCL LOW at its first sample. -/
theorem clrStuckClockReportsOne : Obligations.ClrStuckClockReportsOne := by
  intro s sda scl rest idle legal turn listed
  have accepted := RunsTo.issue idle turn (firstFailingCheck_clr legal)
  have recovering : Recovering _ _ (.low :: rest) := recovering_of_cbInit
    (s := started (.clr sda scl) ((s.withSchedule []).latch (encode (.clr sda scl)))) rfl rfl
    (decode_encode _) rfl (pins_differ_of_wellFormed legal)
    (listed ▸ foretells_listed s.levelAnswers s.freeDraws)
  obtain ⟨t, run, fsm, result, resultValid, xportReady, standing, modes, history⟩ :=
    recovering.stuckRun rfl
  refine ⟨t, accepted.trans run, fsm, result, resultValid, xportReady, congrArg Standing.devaddr standing,
    congrArg Standing.cfgValid standing, congrArg Standing.faultCause standing,
    (modes sda).trans (if_pos (.inr rfl)), (modes scl).trans (if_pos (.inl rfl)),
    fun p notSda notScl => (modes p).trans (if_neg (not_or.mpr ⟨notScl, notSda⟩)), history⟩

end Sys2Proof.Machine

namespace Sys2Proof.Machine

/-! ## The accept step's checks, in their order (R245 to R251) -/

/-- A check that names its fault comes before whatever is checked after it (R251). -/
theorem FaultCause.ite_orElse {p : Prop} [Decidable p] {cause second : FaultCause}
    (named : cause ≠ .noFault) :
    (if p then cause else .noFault).orElse second = if p then cause else second := by
  by_cases h : p <;> simp [FaultCause.orElse, h, named]

section Checks
variable {i : Instr} {s : State}

theorem numBytesCheck_eq (nb : BitVec 3) :
    (if legalNumBytes nb then FaultCause.noFault else .numBytesRange) =
      if nb.toNat = 0 ∨ 4 < nb.toNat then .numBytesRange else .noFault := by
  have illegal : ¬ legalNumBytes nb = true ↔ nb.toNat = 0 ∨ 4 < nb.toNat := by
    simp only [legalNumBytes, Bool.and_eq_true, decide_eq_true_eq]
    omega
  simp only [← illegal, ite_not]

theorem pinRangeCheck_eq (p : Params) (sda scl : Byte) :
    (if legalPin p sda && legalPin p scl then FaultCause.noFault else .pinRange) =
      if p.pinCount ≤ sda.toNat ∨ p.pinCount ≤ scl.toNat then .pinRange else .noFault := by
  have illegal : ¬ (legalPin p sda && legalPin p scl) = true ↔
      p.pinCount ≤ sda.toNat ∨ p.pinCount ≤ scl.toNat := by
    simp only [legalPin, Bool.and_eq_true, decide_eq_true_eq]
    omega
  simp only [← illegal, ite_not]

/-- Checks 4 and 5 of a command that needs the transport (R249, R250). -/
theorem transportChecks_of_needs (needs : needsTransport i = true) :
    (configuredCheck i s).orElse (transportCheck i s) =
      if s.cfgValid = false then .notConfigured
      else if s.xportReady = false then .transportDisabled else .noFault := by
  simp only [configuredCheck, transportCheck, needs, Bool.true_and, Bool.not_eq_true']
  exact FaultCause.ite_orElse FaultCause.noConfusion

theorem firstFailingCheck_cfg_eq (addr : Byte) :
    firstFailingCheck (.cfg addr) s = if 127 < addr.toNat then .addrRange else .noFault := by
  have range : rangeCheck s.params (.cfg addr) =
      if 127 < addr.toNat then .addrRange else .noFault := by
    simp only [rangeCheck, legalAddr, decide_eq_true_eq, ← not_lt, ite_not]
  rw [firstFailingCheck, range, FaultCause.ite_orElse FaultCause.noConfusion]
  rfl

theorem firstFailingCheck_wr_eq (reg val : Byte) :
    firstFailingCheck (.wr reg val) s =
      if s.cfgValid = false then .notConfigured
      else if s.xportReady = false then .transportDisabled else .noFault :=
  transportChecks_of_needs (i := .wr reg val) rfl

/-- RDU and RDS make the same checks (R162). -/
theorem firstFailingCheck_read_eq {reg : Byte} {nb : BitVec 3}
    (isRead : i = .rdu reg nb ∨ i = .rds reg nb) :
    firstFailingCheck i s =
      if nb.toNat = 0 ∨ 4 < nb.toNat then .numBytesRange
      else if s.cfgValid = false then .notConfigured
      else if s.xportReady = false then .transportDisabled else .noFault := by
  rw [← transportChecks_of_needs (i := .rdu reg nb) rfl, ← FaultCause.ite_orElse FaultCause.noConfusion,
    ← numBytesCheck_eq]
  obtain rfl | rfl := isRead <;> rfl

theorem firstFailingCheck_clr_eq (sda scl : Byte) :
    firstFailingCheck (.clr sda scl) s =
      if s.params.pinCount ≤ sda.toNat ∨ s.params.pinCount ≤ scl.toNat then .pinRange
      else if sda = scl then .pinConflict else .noFault := by
  rw [← FaultCause.ite_orElse FaultCause.noConfusion, ← pinRangeCheck_eq,
    ← FaultCause.ite_orElse (second := .noFault) FaultCause.noConfusion]
  rfl

/-- What the accept step makes of an idle block, given the cause of the first failing check (R111, R251). -/
def State.afterChecks (s : State) (i : Instr) (cause : FaultCause) : State :=
  if cause = .noFault then started i (s.latch (encode i))
  else { s with
    cmd := encode i, faultCause := cause, history := s.history ++ [.fault cause], fsm := .fault }

/-- The accept step in `IDLE`, where a fault releases no pin (R241). -/
theorem exec_eq_afterChecks (i : Instr) (idle : s.fsm = .idle) :
    exec i s = .next (s.afterChecks i (firstFailingCheck i s)) := by
  rw [exec_of_idle i idle, State.afterChecks]
  obtain ⟨passes, eq⟩ | ⟨fails, eq⟩ := accept_cases i (started i) s
  · rw [eq, if_pos passes]
  · rw [eq, if_neg fails, State.raiseFault_of_not_clear _ _
      (by rw [State.latch_fsm, idle]; exact Family.noConfusion)]
    rfl

end Checks

/-- Settles O10: each command's checks in their order, and what the accept step makes of each cause. -/
theorem acceptTakesFirstFailingCheck : Obligations.AcceptTakesFirstFailingCheck := by
  intro s idle
  refine ⟨fun addr => ?_, fun reg val => ?_, fun reg nb => ?_, fun reg nb => ?_, fun sda scl => ?_⟩ <;>
    rw [exec_eq_afterChecks _ idle]
  · have completes : s.afterChecks (.cfg addr) .noFault = { s with
        cmd := encode (.cfg addr), devaddr := addr.setWidth 7, cfgValid := true
        history := s.history ++ [.done .cfg none] } := by
      rw [idle]
      rfl
    rw [firstFailingCheck_cfg_eq, apply_ite (s.afterChecks _), completes]
    rfl
  · simp only [firstFailingCheck_wr_eq, apply_ite (s.afterChecks _)]
    rfl
  · simp only [firstFailingCheck_read_eq (.inl rfl), apply_ite (s.afterChecks _)]
    rfl
  · simp only [firstFailingCheck_read_eq (.inr rfl), apply_ite (s.afterChecks _)]
    rfl
  · simp only [firstFailingCheck_clr_eq, apply_ite (s.afterChecks _)]
    rfl

/-! ## A word issued while a command runs (R241, R244) -/

section Concurrent
variable {s : State}

theorem hostIssue_of_busy (w : Word) (busy : s.busy = true) :
    hostIssue w s = .settled (.next (s.raiseFault .concurrentUse)) := by
  rw [hostIssue, if_neg (s.busy_eq_true.mp busy).2, if_pos busy]

/-- Fault entry sets the pins that a CLR drives to `INPUT`, and no other (R241). -/
theorem State.modeOf_raiseFault_eq (s : State) (c : FaultCause) (p : Byte) :
    (s.raiseFault c).modeOf p =
      if s.fsm.family = .clear ∧ (p = s.sdaPin ∨ p = s.sclPin) ∧ s.modeOf p = .output then .input
      else s.modeOf p := by
  rw [State.modeOf_raiseFault]
  by_cases clear : s.fsm.family = .clear
  · simp only [State.modeOf_releasePins s p clear, clear, true_and]
  · rw [State.releasePins_of_not_clear s clear, if_neg (clear ·.1)]

theorem State.releaseIfDriven_history (s : State) (p : Byte) :
    (s.releaseIfDriven p).history =
      s.history ++ if s.modeOf p = .output then [.mode p .input] else [] := by
  rw [State.releaseIfDriven_state]

/-- A pin still drives after another is released if it did before and is not that one. -/
theorem State.modeOf_releaseIfDriven_eq_output (s : State) (p q : Byte) :
    (s.releaseIfDriven p).modeOf q = .output ↔ q ≠ p ∧ s.modeOf q = .output := by
  rw [State.modeOf_releaseIfDriven]
  by_cases same : q = p
  · subst same
    by_cases driven : s.modeOf q = .output <;> simp [driven]
  · simp [same]

/-- The releases of a stopped CLR are recorded, SDA's first (R241). -/
theorem State.releasePins_history (s : State) :
    s.releasePins.history = s.history ++
      if s.fsm.family = .clear then
        (if s.modeOf s.sdaPin = .output then [.mode s.sdaPin .input] else []) ++
        (if s.sclPin ≠ s.sdaPin ∧ s.modeOf s.sclPin = .output then [.mode s.sclPin .input] else [])
      else [] := by
  by_cases clear : s.fsm.family = .clear
  · simp only [State.releasePins, clear, if_true, State.releaseIfDriven_history,
      State.modeOf_releaseIfDriven_eq_output, List.append_assoc]
  · rw [State.releasePins_of_not_clear s clear, if_neg clear, List.append_nil]

theorem State.raiseFault_history (s : State) (c : FaultCause) :
    (s.raiseFault c).history = s.releasePins.history ++ [.fault c] := rfl

end Concurrent

/-- Settles O39: the turn is fault entry in the state that the running command left. -/
theorem concurrentUseFaults : Obligations.ConcurrentUseFaults := by
  intro s w rest notIdle notFault turn
  have busy : (s.withSchedule rest).busy = true := s.busy_eq_true.mpr ⟨notIdle, notFault⟩
  refine ⟨(s.withSchedule rest).raiseFault .concurrentUse, ?_, State.raiseFault_state _ _,
    State.modeOf_raiseFault_eq _ _, ?_⟩
  · rw [step_of_host turn, hostTurn, hostIssue_of_busy w busy]
    rfl
  · rw [State.raiseFault_history, State.releasePins_history]
    rfl

/-! ## The block in FAULT (R242, R258) -/

theorem hostIssue_of_fault {s : State} (w : Word) (faulted : s.fsm = .fault) :
    hostIssue w s = .settled (.next s) := by
  rw [hostIssue, if_pos faulted]

/-- Settles O40: both turns are the Host's issue in `FAULT`. -/
theorem faultIgnoresCommands : Obligations.FaultIgnoresCommands := by
  intro s w rest faulted turn
  have ignored : hostTurn (.issue w) (s.withSchedule rest) = .settled (.next (s.withSchedule rest)) :=
    hostIssue_of_fault w faulted
  obtain now | ready := turn
  · rw [step_of_host now, ignored]
    rfl
  · rw [step_of_hostWhenReady_quiet ready (State.not_busy_of_fault faulted), ignored]
    rfl

/-- Settles O41: in `FAULT` no command runs and none is accepted, so the ways left to move are a reset, a
read and a turn without effect. -/
theorem onlyResetLeavesFault : Obligations.OnlyResetLeavesFault := by
  intro s t faulted h
  have notBusy : s.busy ≠ true := fun busy => (s.busy_eq_true.mp busy).2 faulted
  have notIdle : s.fsm ≠ .idle := by
    rw [faulted]
    exact Fsm.noConfusion
  cases step_next_cases s t h with
  | running _ _ busy => exact absurd busy notBusy
  | accepted _ _ _ _ idle => exact absurd idle notIdle
  | quiet r _ eq => exact .inr (eq ▸ rfl)
  | concurrent _ _ _ busy => exact absurd busy notBusy
  | reserved _ _ _ idle => exact absurd idle notIdle
  | read n v r _ eq => exact .inr (eq ▸ rfl)
  | init _ _ idle => exact absurd idle notIdle
  | reset r turn _ => exact .inl ⟨r, turn.schedule_eq⟩

end Sys2Proof.Machine

namespace Sys2Proof.Machine

/-! ## Reset (R280, R281) -/

/-- After a reset no pin is driven, whatever was driven before (R281). -/
@[simp] theorem State.modeOf_applyReset (s : State) (p : Byte) : s.applyReset.modeOf p = .input :=
  State.modeOf_reset p

/-- The Host's reset acts in every state: its turn looks at none of the block's registers (R280). -/
theorem step_reset {s : State} {rest : List Turn} (turn : s.schedule = .host .reset :: rest) :
    step s = .next (s.withSchedule rest).applyReset :=
  step_of_host turn

/-- Settles O42: the turn is a reset, whose registers and pins are those of `State.reset` and whose
parameters and schedule are the old ones. -/
theorem resetFromAnyState : Obligations.ResetFromAnyState := by
  intro s rest turn
  exact ⟨(s.withSchedule rest).applyReset, step_reset turn, rfl, rfl, rfl, rfl, rfl,
    State.modeOf_applyReset _, rfl, rfl, rfl⟩

end Sys2Proof.Machine
